-- ==== Sys2Proof/Word.lean ====
section
/-! DEFINITION. The words of the block: the fixed widths of its registers, operands and ports
(spec/00_scope.md R9, R11, R12). Every value is an unsigned bit vector, bit 0 the least significant. -/

namespace Sys2Proof

/-- One wire, or a one-bit register (`SEQ_W` = 1). -/
abbrev Bit := BitVec 1

/-- A data byte (`BYTE_W` = 8). -/
abbrev Byte := BitVec 8

/-- A value of the CRC register, of `app`, or a CRC operand (`CRC_W` = 16). -/
abbrev CrcWord := BitVec 16

/-- The opaque handle that stands for a message's payload (`TAG_W` = 16, R25). -/
abbrev Handle := BitVec 16

/-- A value of the attempt counter register (`ATTEMPT_W` = 32, R23). -/
abbrev AttemptCount := BitVec 32

/-- A word on the command port (`CMD_W` = 20, R70). -/
abbrev CommandWord := BitVec 20

end Sys2Proof
end

