-- ==== Sys2Proof/Syntax.lean ====
section
/-! DEFINITION. The instructions of the block, one constructor per row of spec/opcode_table.json, the
two ports their words are presented on, one cycle's input sample, and the assembler's lines. -/

namespace Sys2Proof

/-- The instructions: the commands a host presents (spec/30_encoding.md R71) and the responses the
channel gives (R75). An operand has exactly the width of its operand form (R72). -/
inductive Instr where
  | nop
  | crcInit
  | crcByte (d : Byte)
  | crcAppend (v : CrcWord)
  | arqInit
  | arqSend (v : Handle)
  | rsvd6
  | rsvd7
  | rsvd8
  | rsvd9
  | rsvdA
  | rsvdB
  | rsvdC
  | rsvdD
  | rsvdE
  | rsvdF
  | rspDelivered
  | rspLost
deriving DecidableEq, Repr

/-- The word of an instruction with the port it stands on: format C on the command port (R70), format R
on the response port (R75). -/
inductive PortWord where
  | command (w : CommandWord)
  | response (d : Bit)
deriving DecidableEq, Repr

/-- The input ports as sampled in one step (spec/10_state.md R31). `clk` is the step itself. -/
structure Inputs where
  /-- synchronous reset, active high (R230) -/
  rst : Bool
  /-- the host presents a command in this step -/
  cmdValid : Bool
  /-- the command word; ignored when `cmdValid` is false -/
  cmd : CommandWord
  /-- the channel answers the outstanding transmission in this step -/
  rspValid : Bool
  /-- the answer, 1 delivered and 0 lost; ignored when `rspValid` is false -/
  rspDelivered : Bit
deriving DecidableEq, Repr, Inhabited

/-- A step in which nothing is presented and reset is not applied (R238). -/
def Inputs.quiet : Inputs := ⟨false, false, 0, false, 0⟩

/-- A step in which one command word is presented and nothing else. -/
def Inputs.ofCommand (w : CommandWord) : Inputs := ⟨false, true, w, false, 0⟩

/-- A step in which the channel gives one answer and nothing else happens. -/
def Inputs.ofResponse (d : Bit) : Inputs := ⟨false, false, 0, true, d⟩

/-- A step in which one command is presented and the channel gives one answer. -/
def Inputs.ofBoth (w : CommandWord) (d : Bit) : Inputs := ⟨false, true, w, true, d⟩

/-- One step with `rst = 1` (the assembler's line `RESET`, R81). -/
def Inputs.ofReset : Inputs := ⟨true, false, 0, false, 0⟩

/-- The one-instruction sample of a port word. -/
def PortWord.inputs : PortWord → Inputs
  | .command w => Inputs.ofCommand w
  | .response d => Inputs.ofResponse d

/-- Lines of the assembler (spec/30_encoding.md R81) and its pseudo-instructions (R82). Operands are
numerals as written, checked by `AsmLine.wellFormed`. -/
inductive AsmLine where
  | nop
  | crcInit
  | crcByte (d : Nat)
  | crcAppend (v : Nat)
  | arqInit
  | arqSend (v : Nat)
  /-- `RSVD6` to `RSVDF`, by opcode -/
  | rsvd (op : Nat)
  | rspDelivered
  | rspLost
  | reset
  | crcCalc (bytes : List Nat)
  | crcStr (text : List Char)
  | crcWord (v : Nat)
  | crcCheck (bytes : List Nat) (v : Nat)
deriving DecidableEq, Repr

end Sys2Proof
end

