-- ==== Sys2Proof/Config.lean ====
section
/-! DEFINITION. What an implementation of the block fixes (spec/00_scope.md R9, R10) and the one free
value of the model, the input samples of a cycle that nothing has decided (notes/assumptions/1.md). -/

namespace Sys2Proof.Config

/-- The build-time parameters of R9, by their names there. The ones a model may vary are `crcPoly` and
`crcInit` (R116), `attemptW` (R162) and `maxAttempts` (R172); `Params.wellFormed` says which values the
others must have. -/
structure Params where
  /-- `CRC_W`, the width of the CRC register; not a parameter a model varies (R116) -/
  crcW : Nat
  /-- `CRC_POLY`, the generator polynomial's low 16 coefficients -/
  crcPoly : CrcWord
  /-- `CRC_INIT`, the initial register value -/
  crcInit : CrcWord
  /-- `BYTE_W`, the width of a data byte -/
  byteW : Nat
  /-- `SEQ_W`, the width of the sequence number -/
  seqW : Nat
  /-- `TAG_W`, the width of the payload handle -/
  tagW : Nat
  /-- `ATTEMPT_W`, the width at which the attempt counter saturates; at most 32, the width of the
  register that holds it here (notes/assumptions/5.md) -/
  attemptW : Nat
  /-- `MAX_ATTEMPTS`, the attempt ceiling; 0 means none -/
  maxAttempts : Nat
  /-- `RETRY_DELAY`, the pacing delay in cycles; the spec describes the value 0 only (R170) -/
  retryDelay : Nat
  /-- `CMD_W`, the width of a command word -/
  cmdW : Nat
deriving DecidableEq, Repr

/-- This hardware's values (the column "value" of R9's table). -/
def hardware : Params where
  crcW := 16
  crcPoly := 0x1021
  crcInit := 0xFFFF
  byteW := 8
  seqW := 1
  tagW := 16
  attemptW := 32
  maxAttempts := 0
  retryDelay := 0
  cmdW := 20

/-- The free value of the model: what the platform, the host and the channel drive onto the input ports
in a cycle that no listed sample decides. Nothing constrains it (R136: "must accept either value";
R242, R245, and spec/93_implementation_defined.md U6, U8, U9: "any value"). It has no body, so nothing
can be proved of it that does not hold of every sequence of inputs. Log entry 1. -/
opaque environment : Nat → Inputs

end Sys2Proof.Config
end

