-- ==== Sys2Proof/Machine/Operands.lean ====
section
/-! DEFINITION. The fields of a command word and its operand forms (spec/30_encoding.md R70, R72). An
operand is a bit slice of `arg`, unsigned, neither extended nor scaled. Form C0 has no operand. -/

namespace Sys2Proof

/-- `op = cmd[19:16]` (R70). -/
def opField (w : CommandWord) : BitVec 4 := w.extractLsb' 16 4

/-- `arg = cmd[15:0]` (R70). -/
def argField (w : CommandWord) : BitVec 16 := w.extractLsb' 0 16

/-- Form C8: `cmd[7:0]` (R72). -/
def operandC8 (w : CommandWord) : Byte := w.extractLsb' 0 8

/-- Form C16: `cmd[15:0]` (R72). -/
def operandC16 (w : CommandWord) : BitVec 16 := w.extractLsb' 0 16

/-- The word of an opcode and an operand, `(op << 16) | operand` (R81). -/
def commandWord (op : BitVec 4) (operand : BitVec 16) : CommandWord :=
  (op.setWidth 20 <<< 16) ||| operand.setWidth 20

/-- `{hi, lo}`, the 16-bit value whose bytes are laid out high byte first (R12, R55). -/
def joinBytes (hi lo : Byte) : BitVec 16 := (hi.setWidth 16 <<< 8) ||| lo.setWidth 16

/-- `v[15:8]`, the first byte of a 16-bit value (spec/20_memory.md R55). -/
def highByte (v : BitVec 16) : Byte := v.extractLsb' 8 8

/-- `v[7:0]`, the second byte of a 16-bit value (R55). -/
def lowByte (v : BitVec 16) : Byte := v.extractLsb' 0 8

end Sys2Proof
end

