-- ==== Sys2Proof/Decode.lean ====
section
/-! DEFINITION. Decoding, total on both ports (spec/30_encoding.md R80), the decoding of a numbered table
word with its refusals by name, and the encoder written from the same tables (R71, R73, R75, R81). -/

namespace Sys2Proof

/-- The command of a 20-bit word: `cmd[19:16]` alone tells it (R70, R71, R80). The last arm is opcode
`0xF`, the one value of four bits left. -/
def decodeCommand (w : CommandWord) : Instr :=
  match (opField w).toNat with
  | 0x0 => .nop
  | 0x1 => .crcInit
  | 0x2 => .crcByte (operandC8 w)
  | 0x3 => .crcAppend (operandC16 w)
  | 0x4 => .arqInit
  | 0x5 => .arqSend (operandC16 w)
  | 0x6 => .rsvd6
  | 0x7 => .rsvd7
  | 0x8 => .rsvd8
  | 0x9 => .rsvd9
  | 0xA => .rsvdA
  | 0xB => .rsvdB
  | 0xC => .rsvdC
  | 0xD => .rsvdD
  | 0xE => .rsvdE
  | _ => .rsvdF

/-- The response of one bit: 1 is delivered, 0 is lost (R75). -/
def decodeResponse (d : Bit) : Instr :=
  if d = 1 then .rspDelivered else .rspLost

/-- The instruction of a word on its port: exactly one for each (R80). -/
def decode : PortWord → Instr
  | .command w => decodeCommand w
  | .response d => decodeResponse d

/-- Why a numbered table word is no word of a port. -/
inductive DecodeError where
  /-- a format C word has a bit set above `cmd[19]` -/
  | commandWiderThanPort (w : Nat)
  /-- a format R word has a bit set above its one bit -/
  | responseWiderThanPort (w : Nat)
deriving DecidableEq, Repr

/-- The port word of a table word. A row of format R has 1 bit, one byte when rounded up; a row of format C
has 20 bits, three bytes. A bit above the port's wires is refused, never dropped (log entry 2). -/
def portWordOfTable (nbits w : Nat) : Except DecodeError PortWord :=
  if nbits ≤ 8 then
    if w < 2 then .ok (.response (BitVec.ofNat 1 w)) else .error (.responseWiderThanPort w)
  else
    if w < 2 ^ Config.hardware.cmdW then .ok (.command (BitVec.ofNat 20 w))
    else .error (.commandWiderThanPort w)

/-- The instruction of a table word, or the name of what is wrong with it. -/
def decodeTable (nbits w : Nat) : Except DecodeError Instr :=
  match portWordOfTable nbits w with
  | .ok pw => .ok (decode pw)
  | .error e => .error e

/-- The instruction the decoder reads from an instruction whose bits are `w`; none where it refuses. -/
def decodeTableWord (nbits w : Nat) : Option Instr :=
  match decodeTable nbits w with
  | .ok i => some i
  | .error _ => none

/-- The word of an instruction, unused operand bits zero (R71, R73, R75, R81). -/
def encode : Instr → PortWord
  | .nop => .command (commandWord 0x0 0)
  | .crcInit => .command (commandWord 0x1 0)
  | .crcByte d => .command (commandWord 0x2 (d.setWidth 16))
  | .crcAppend v => .command (commandWord 0x3 v)
  | .arqInit => .command (commandWord 0x4 0)
  | .arqSend v => .command (commandWord 0x5 v)
  | .rsvd6 => .command (commandWord 0x6 0)
  | .rsvd7 => .command (commandWord 0x7 0)
  | .rsvd8 => .command (commandWord 0x8 0)
  | .rsvd9 => .command (commandWord 0x9 0)
  | .rsvdA => .command (commandWord 0xA 0)
  | .rsvdB => .command (commandWord 0xB 0)
  | .rsvdC => .command (commandWord 0xC 0)
  | .rsvdD => .command (commandWord 0xD 0)
  | .rsvdE => .command (commandWord 0xE 0)
  | .rsvdF => .command (commandWord 0xF 0)
  | .rspDelivered => .response 1
  | .rspLost => .response 0

/-- `match` and `mask` of the instruction's row of spec/opcode_table.json. -/
def tableRow : Instr → Nat × Nat
  | .nop => (0x00000, 0xF0000)
  | .crcInit => (0x10000, 0xF0000)
  | .crcByte _ => (0x20000, 0xF0000)
  | .crcAppend _ => (0x30000, 0xF0000)
  | .arqInit => (0x40000, 0xF0000)
  | .arqSend _ => (0x50000, 0xF0000)
  | .rsvd6 => (0x60000, 0xF0000)
  | .rsvd7 => (0x70000, 0xF0000)
  | .rsvd8 => (0x80000, 0xF0000)
  | .rsvd9 => (0x90000, 0xF0000)
  | .rsvdA => (0xA0000, 0xF0000)
  | .rsvdB => (0xB0000, 0xF0000)
  | .rsvdC => (0xC0000, 0xF0000)
  | .rsvdD => (0xD0000, 0xF0000)
  | .rsvdE => (0xE0000, 0xF0000)
  | .rsvdF => (0xF0000, 0xF0000)
  | .rspDelivered => (1, 1)
  | .rspLost => (0, 1)

/-- The bits of a port word as one number. -/
def PortWord.toNat : PortWord → Nat
  | .command w => w.toNat
  | .response d => d.toNat

/-- The operand bits a command's form uses, as a mask on the word with the opcode bits (R72): an
independent reading of which bits R73 lets be anything. -/
def usedBits (w : CommandWord) : CommandWord :=
  if opField w = 0x2 then 0xF00FF
  else if opField w = 0x3 ∨ opField w = 0x5 then 0xFFFFF
  else 0xF0000

end Sys2Proof
end

