-- ==== Sys2Proof/Machine/CrcArith.lean ====
section
/-! DEFINITION. The CRC arithmetic of spec/40_crc.md section 1 as pure functions, written in `CRC_POLY` and
`CRC_INIT` so that a model may quantify over them (R116). -/

namespace Sys2Proof.Machine

/-- `BITSTEP(c)` (R100): the test of `c[15]` is made before the shift. -/
def bitStep (poly c : CrcWord) : CrcWord :=
  if c.getLsbD 15 then (c <<< 1) ^^^ poly else c <<< 1

/-- `n` bit steps. -/
def bitSteps (poly : CrcWord) : Nat → CrcWord → CrcWord
  | 0, c => c
  | n + 1, c => bitSteps poly n (bitStep poly c)

/-- `BYTESTEP(c, d)` (R101): the byte goes into bits 15:8, then eight bit steps. -/
def byteStep (poly c : CrcWord) (d : Byte) : CrcWord :=
  bitSteps poly 8 (c ^^^ (d.setWidth 16 <<< 8))

/-- The byte steps of a sequence, in index order (R53). -/
def byteSteps (poly : CrcWord) : CrcWord → List Byte → CrcWord
  | c, [] => c
  | c, d :: ds => byteSteps poly (byteStep poly c d) ds

/-- `CRC16(s)`, the document's `calculateCRC` (R102): no final XOR, no reflection. -/
def crc16 (poly init : CrcWord) (s : List Byte) : CrcWord := byteSteps poly init s

/-- The two bytes of a 16-bit value, high byte first (R55, R109). -/
def suffixBytes (v : CrcWord) : List Byte := [highByte v, lowByte v]

/-- `APPEND(s, v)`, the document's `appendCRC` (R109). -/
def append (s : List Byte) (v : CrcWord) : List Byte := s ++ suffixBytes v

/-- The table `T[t] = BYTESTEP(0x0000, t)` (R105). -/
def crcTable (poly : CrcWord) (t : Byte) : CrcWord := byteStep poly 0x0000 t

/-- `BYTESTEP` at `CRC_POLY = 0x1021` as the XOR equations of R105, bit 15 first. -/
def byteStepXor (c : CrcWord) (d : Byte) : CrcWord :=
  let t := highByte c ^^^ d
  let b := fun k => t.getLsbD k
  let l := fun k => c.getLsbD k
  BitVec.ofBoolListBE [
    l 7 ^^ b 7 ^^ b 3, l 6 ^^ b 6 ^^ b 2, l 5 ^^ b 5 ^^ b 1, l 4 ^^ b 7 ^^ b 4 ^^ b 0,
    l 3 ^^ b 6, l 2 ^^ b 5, l 1 ^^ b 4, l 0 ^^ b 7 ^^ b 3,
    b 7 ^^ b 6 ^^ b 2, b 6 ^^ b 5 ^^ b 1, b 5 ^^ b 4 ^^ b 0, b 4,
    b 7 ^^ b 3, b 6 ^^ b 2, b 5 ^^ b 1, b 4 ^^ b 0]

end Sys2Proof.Machine
end

