-- ==== Sys2Proof/Machine/State.lean ====
section
/-! DEFINITION. The machine's state as plain data: the eight elements of spec/10_state.md R20, "its whole
architectural state", and the model's own two fields for the inputs of coming cycles (log entry 1); its
value after reset (R37); and the reasons a step could stop, of which the spec gives none. -/

namespace Sys2Proof.Machine

/-- The attempt-loop state `fsm` (R24, spec/42_arq.md R150). Three constructors, as
spec/93_implementation_defined.md U2 asks: the fourth code is never entered. -/
inductive Fsm where
  | idle
  | awaitFrame
  | awaitAck
deriving DecidableEq, Repr

/-- The outcome register `result` (R26). Three constructors, as U3 asks. -/
inductive MessageResult where
  | none
  | delivered
  | gaveUp
deriving DecidableEq, Repr

/-- The whole state. -/
structure State where
  /-- the CRC register (R21) -/
  crc : CrcWord
  /-- the last value given to `CRC.APPEND` (R28) -/
  app : CrcWord
  /-- the sequence bit (R22) -/
  seq : Bit
  /-- the attempt counter (R23) -/
  attempt : AttemptCount
  /-- the attempt-loop state (R24) -/
  fsm : Fsm
  /-- the handle of the message being sent (R25) -/
  tag : Handle
  /-- the outcome of the last message (R26) -/
  result : MessageResult
  /-- sticky: a reserved command was accepted (R29) -/
  errIllegal : Bool
  /-- the model's own: the input samples decided for the coming cycles, oldest first (log entry 1) -/
  inputs : List Inputs
  /-- the model's own: how many samples were drawn from the free environment (log entry 1) -/
  draws : Nat
deriving DecidableEq, Repr

/-- Why the machine would stop with a fault. The block has no exception, trap or abort
(spec/60_exceptions.md R204: "No command and no response can trap, fault or be aborted"), so there is
none: nobody raises one. -/
inductive Fault where
deriving DecidableEq, Repr

/-- Why the machine would give an instruction no meaning. -/
inductive Refusal where
  /-- Raised by `exec`'s arm of an instruction the model has not reached; safe, since the model then says
  nothing of it. No arm of this model raises it. -/
  | notModelled (mnemonic : String)
deriving DecidableEq, Repr

/-- What one step of this machine answers. -/
abbrev Outcome := Host.Outcome State Fault Refusal

/-- The state after a reset step: R37's table, with nothing decided about the coming inputs. -/
def State.reset : State where
  crc := 0xFFFF
  app := 0x0000
  seq := 0
  attempt := 0
  fsm := .idle
  tag := 0x0000
  result := .none
  errIllegal := false
  inputs := []
  draws := 0

end Sys2Proof.Machine
end

