-- ==== Sys2Proof/Machine/Flags.lean ====
section
/-! DEFINITION. The status bits that are functions of the state (spec/10_state.md R30), the state codes
(spec/30_encoding.md R77, R78), and the two conditions of a step: readiness and acceptance (R33, R19).
No command writes a condition code. -/

namespace Sys2Proof.Machine

/-- The 2-bit code of `fsm` (R77). -/
def Fsm.code : Fsm → BitVec 2
  | .idle => 0b00
  | .awaitFrame => 0b01
  | .awaitAck => 0b10

/-- The 2-bit code of `result` (R78). -/
def MessageResult.code : MessageResult → BitVec 2
  | .none => 0b00
  | .delivered => 0b01
  | .gaveUp => 0b10

/-- `crc_zero`: the bytes fed since the last `CRC.INIT` leave residue zero (R30). -/
def State.crcZero (s : State) : Bool := s.crc == 0x0000

/-- `busy`: a message is being sent, `fsm != IDLE` (R30). -/
def State.busy (s : State) : Bool :=
  match s.fsm with
  | .idle => false
  | .awaitFrame => true
  | .awaitAck => true

/-- `tx_valid`: a unit is on the channel port (R30). -/
def State.txValid (s : State) : Bool := s.busy

/-- `tx_kind`: 1 when the unit is the acknowledgment (R30). -/
def State.txKind (s : State) : Bool :=
  match s.fsm with
  | .idle => false
  | .awaitFrame => false
  | .awaitAck => true

/-- `cmd_ready`: `ARQ.INIT` (`0x4`) and `ARQ.SEND` (`0x5`) are not ready while busy; every other command
always is (R33). It does not depend on `cmd_valid`. -/
def State.cmdReady (s : State) (w : CommandWord) : Bool :=
  !(s.busy && (opField w == 0x4 || opField w == 0x5))

/-- A command is accepted when `rst = 0`, `cmd_valid = 1` and `cmd_ready = 1` (spec/00_scope.md R19). -/
def State.accepts (s : State) (i : Inputs) : Bool :=
  !i.rst && i.cmdValid && s.cmdReady i.cmd

end Sys2Proof.Machine
end

