-- ==== Sys2Proof/Machine/Ops.lean ====
section
/-! DEFINITION. The named operations over the state, each the one place where its elements are written.
The block takes no exception (spec/60_exceptions.md R204, R208): `markIllegal` is the one shared operation
that stands in its place, and there is no return from it (R209). -/

namespace Sys2Proof.Machine

/-- Goes on with a next state; a stop stays that stop. -/
def andThen (o : Outcome) (f : State → Outcome) : Outcome :=
  match o with
  | .next s => f s
  | .fault r => .fault r
  | .refused r => .refused r

/-- `crc <- c`. -/
def loadCrc (c : CrcWord) (s : State) : State := { s with crc := c }

/-- `crc <- BYTESTEP(crc, d)` (spec/40_crc.md R108). -/
def foldByte (p : Config.Params) (d : Byte) (s : State) : State :=
  loadCrc (byteStep p.crcPoly s.crc d) s

/-- `app <- v` (R110). -/
def loadSuffix (v : CrcWord) (s : State) : State := { s with app := v }

/-- A fresh ProtocolState (spec/42_arq.md R152). -/
def freshProtocol (s : State) : State :=
  { s with seq := 0, attempt := 0, tag := 0x0000, result := .none }

/-- The start of a message and its first attempt (R153). -/
def beginMessage (v : Handle) (s : State) : State :=
  { s with tag := v, attempt := 1, result := .none, fsm := .awaitFrame }

/-- A command that is not ready while busy is held: it has no effect of any kind (R163). -/
def holdWhileBusy (f : State → State) (s : State) : State :=
  if s.busy then s else f s

/-- Frame delivered: the acknowledgment goes on the channel port (R154). -/
def frameDelivered (s : State) : State := { s with fsm := .awaitAck }

/-- Ack delivered: the message is complete (R156). -/
def ackDelivered (s : State) : State :=
  { s with seq := s.seq ^^^ 1, result := .delivered, fsm := .idle }

/-- `sat_N(x + 1)` at `N = w` (spec/00_scope.md R14, R162). -/
def satIncr (w : Nat) (x : AttemptCount) : AttemptCount :=
  BitVec.ofNat 32 (min (x.toNat + 1) (2 ^ w - 1))

/-- The next attempt of the same message (R158). -/
def nextAttempt (p : Config.Params) (s : State) : State :=
  { s with attempt := satIncr p.attemptW s.attempt, fsm := .awaitFrame }

/-- The message is abandoned at the ceiling; the bit does not flip (R172). -/
def abandon (s : State) : State := { s with fsm := .idle, result := .gaveUp }

/-- A loss now would be the loss of the last attempt the ceiling allows (R172); never with no ceiling. -/
def atCeiling (p : Config.Params) (s : State) : Bool :=
  decide (p.maxAttempts ≠ 0) && decide (p.maxAttempts ≤ s.attempt.toNat)

/-- `RETRY` (R158), as R172 replaces it where there is a ceiling. -/
def retry (p : Config.Params) (s : State) : State :=
  if atCeiling p s then abandon s else nextAttempt p s

/-- `err_illegal <- 1`, the whole effect of a reserved command (R29, R191, R208). -/
def markIllegal (s : State) : State := { s with errIllegal := true }

/-- A reset step: every element of the block takes its reset value (spec/70_reset_and_hazards.md R231).
The coming inputs are not the block's and stay (log entry 1). -/
def resetBlock (p : Config.Params) (s : State) : State :=
  { s with crc := p.crcInit, app := 0x0000, seq := 0, attempt := 0, fsm := .idle, tag := 0x0000,
           result := .none, errIllegal := false }

end Sys2Proof.Machine
end

