-- ==== Sys2Proof/Machine/Arq.lean ====
section
/-! DEFINITION. The ARQ commands: `ARQ.INIT`, `ARQ.SEND` (spec/42_arq.md section 2), each held while the
block is busy (R163). -/

namespace Sys2Proof.Machine

/-- `ARQ.INIT` (R152). It cannot abort a message (R164). -/
def execArqInit (s : State) : Outcome := .next (holdWhileBusy freshProtocol s)

/-- `ARQ.SEND v` (R153). The message is sent with the current sequence bit. -/
def execArqSend (v : Handle) (s : State) : Outcome := .next (holdWhileBusy (beginMessage v) s)

end Sys2Proof.Machine
end

