-- ==== Sys2Proof/Machine/Channel.lean ====
section
/-! DEFINITION. The responses of the channel, routed by the arbiter's grant (spec/41_channel.md R135): with
nothing outstanding a response is ignored (R139). -/

namespace Sys2Proof.Machine

/-- The transition a delivered answer selects (R137). -/
def respondDelivered (s : State) : State :=
  match s.fsm with
  | .idle => s
  | .awaitFrame => frameDelivered s
  | .awaitAck => ackDelivered s

/-- The transition a lost answer selects (R138): the frame and the acknowledgment are treated alike
(spec/42_arq.md R155, R157). -/
def respondLost (p : Config.Params) (s : State) : State :=
  match s.fsm with
  | .idle => s
  | .awaitFrame => retry p s
  | .awaitAck => retry p s

/-- `RSP.DELIVERED` (R137). -/
def execRspDelivered (s : State) : Outcome := .next (respondDelivered s)

/-- `RSP.LOST` (R138). -/
def execRspLost (s : State) : Outcome := .next (respondLost Config.hardware s)

end Sys2Proof.Machine
end

