-- ==== Sys2Proof/Machine/Crc.lean ====
section
/-! DEFINITION. The CRC family: `CRC.INIT`, `CRC.BYTE`, `CRC.APPEND` (spec/40_crc.md section 2). Always
ready, never failing (R113). -/

namespace Sys2Proof.Machine

/-- `CRC.INIT` (R107). -/
def execCrcInit (s : State) : Outcome := .next (loadCrc Config.hardware.crcInit s)

/-- `CRC.BYTE d` (R108). Its pseudocode is the rule; its remark on the byte `0x00` is log entry 8. -/
def execCrcByte (d : Byte) (s : State) : Outcome := .next (foldByte Config.hardware d s)

/-- `CRC.APPEND v` (R110). It neither reads nor writes `crc`. -/
def execCrcAppend (v : CrcWord) (s : State) : Outcome := .next (loadSuffix v s)

end Sys2Proof.Machine
end

