-- ==== Sys2Proof/Machine/System.lean ====
section
/-! DEFINITION. `NOP` (spec/43_system.md R190) and the ten reserved commands, which all behave alike (R191):
accepted, no effect on CRC or ARQ state, sticky `err_illegal`. -/

namespace Sys2Proof.Machine

/-- `NOP` (R190): no state element is written. -/
def execNop (s : State) : Outcome := .next s

/-- `RSVD6`, opcode `0x6` (R191). -/
def execRsvd6 (s : State) : Outcome := .next (markIllegal s)

/-- `RSVD7`, opcode `0x7` (R191). -/
def execRsvd7 (s : State) : Outcome := .next (markIllegal s)

/-- `RSVD8`, opcode `0x8` (R191). -/
def execRsvd8 (s : State) : Outcome := .next (markIllegal s)

/-- `RSVD9`, opcode `0x9` (R191). -/
def execRsvd9 (s : State) : Outcome := .next (markIllegal s)

/-- `RSVDA`, opcode `0xA` (R191). -/
def execRsvdA (s : State) : Outcome := .next (markIllegal s)

/-- `RSVDB`, opcode `0xB` (R191). -/
def execRsvdB (s : State) : Outcome := .next (markIllegal s)

/-- `RSVDC`, opcode `0xC` (R191). -/
def execRsvdC (s : State) : Outcome := .next (markIllegal s)

/-- `RSVDD`, opcode `0xD` (R191). -/
def execRsvdD (s : State) : Outcome := .next (markIllegal s)

/-- `RSVDE`, opcode `0xE` (R191). -/
def execRsvdE (s : State) : Outcome := .next (markIllegal s)

/-- `RSVDF`, opcode `0xF` (R191). -/
def execRsvdF (s : State) : Outcome := .next (markIllegal s)

end Sys2Proof.Machine
end

