-- ==== Sys2Proof/Machine/Dispatch.lean ====
section
/-! DEFINITION. The dispatch of an instruction to its meaning, one arm per row of spec/opcode_table.json. -/

namespace Sys2Proof.Machine

/-- What presenting an instruction to the block does, in a step that presents nothing else. -/
def exec (i : Instr) (s : State) : Host.Outcome State Fault Refusal :=
  match i with
  -- commands of the host (spec/30_encoding.md R71)
  | .nop => Sys2Proof.Machine.execNop s
  | .crcInit => Sys2Proof.Machine.execCrcInit s
  | .crcByte d => Sys2Proof.Machine.execCrcByte d s
  | .crcAppend v => Sys2Proof.Machine.execCrcAppend v s
  | .arqInit => Sys2Proof.Machine.execArqInit s
  | .arqSend v => Sys2Proof.Machine.execArqSend v s
  | .rsvd6 => Sys2Proof.Machine.execRsvd6 s
  | .rsvd7 => Sys2Proof.Machine.execRsvd7 s
  | .rsvd8 => Sys2Proof.Machine.execRsvd8 s
  | .rsvd9 => Sys2Proof.Machine.execRsvd9 s
  | .rsvdA => Sys2Proof.Machine.execRsvdA s
  | .rsvdB => Sys2Proof.Machine.execRsvdB s
  | .rsvdC => Sys2Proof.Machine.execRsvdC s
  | .rsvdD => Sys2Proof.Machine.execRsvdD s
  | .rsvdE => Sys2Proof.Machine.execRsvdE s
  | .rsvdF => Sys2Proof.Machine.execRsvdF s
  -- answers of the channel (R75)
  | .rspDelivered => Sys2Proof.Machine.execRspDelivered s
  | .rspLost => Sys2Proof.Machine.execRspLost s

end Sys2Proof.Machine
end

