-- ==== Sys2Proof/Machine/Cycle.lean ====
section
/-! DEFINITION. One clock cycle of the machine on sampled inputs (spec/70_reset_and_hazards.md R236): reset
before everything, then the channel's answer and the accepted command, each through `exec`. -/

namespace Sys2Proof.Machine

/-- What the channel's answer does in a step, if there is one (part (a) of R236). -/
def runResponse (i : Inputs) (s : State) : Outcome :=
  if i.rspValid then exec (decodeResponse i.rspDelivered) s else .next s

/-- What the presented command does in a step, if it is accepted; `ready` is `cmd_ready`, taken from the state
at the start of the step (part (b) of R236). -/
def runCommand (ready : Bool) (i : Inputs) (s : State) : Outcome :=
  if i.cmdValid && ready then exec (decodeCommand i.cmd) s else .next s

/-- One cycle (R236; reset has precedence over everything in its step, R232). -/
def cycle (i : Inputs) (s : State) : Outcome :=
  if i.rst then .next (resetBlock Config.hardware s)
  else andThen (runResponse i s) (runCommand (s.cmdReady i.cmd) i)

end Sys2Proof.Machine
end

