-- ==== Sys2Proof/Machine/Fetch.lean ====
section
/-! DEFINITION. Where a step gets its inputs: the oldest sample listed, or, where none is listed, a fresh draw
from the free environment (log entry 1). The block fetches nothing itself (spec/20_memory.md R64). -/

namespace Sys2Proof.Machine

/-- The inputs sampled in the next step. -/
def State.nextInputs (s : State) : Inputs :=
  match s.inputs with
  | [] => Config.environment s.draws
  | i :: _ => i

/-- The state with that sample used up. -/
def State.takeInputs (s : State) : State :=
  match s.inputs with
  | [] => { s with draws := s.draws + 1 }
  | _ :: is => { s with inputs := is }

/-- The state with samples decided for the coming cycles, before those already listed. -/
def State.present (is : List Inputs) (s : State) : State := { s with inputs := is ++ s.inputs }

/-- The state whose next step samples exactly the table word: its command presented, or its answer given. A
word that is none of its port leaves the state as it is (log entry 2). -/
def State.presentTableWord (s : State) (nbits w : Nat) : State :=
  match portWordOfTable nbits w with
  | .ok pw => s.present [pw.inputs]
  | .error _ => s

end Sys2Proof.Machine
end

