-- ==== Sys2Proof/WellFormed.lean ====
section
/-! DEFINITION. The checks on what is written by hand: the parameters of a model (spec/00_scope.md R9) and
an assembler line (spec/30_encoding.md R81, R82). A constructor of `Instr` needs no check: its operand's type has exactly the width of its operand form (R72), and every value of that
width is legal (spec/60_exceptions.md R203). -/

namespace Sys2Proof

/-- The widths and the delay that are not parameters a model may vary (R9, R116, R170). -/
def Config.Params.fixedPart (p : Config.Params) : Bool :=
  p.crcW == 16 && p.byteW == 8 && p.seqW == 1 && p.tagW == 16 && p.cmdW == 20 && p.retryDelay == 0

/-- A counter width the 32-bit register can hold, and a ceiling that is 0 or at most
`2^ATTEMPT_W - 1` (R172). -/
def Config.Params.counterPart (p : Config.Params) : Bool :=
  decide (1 ≤ p.attemptW) && decide (p.attemptW ≤ 32) && decide (p.maxAttempts ≤ 2 ^ p.attemptW - 1)

/-- Parameters the spec describes. -/
def Config.Params.wellFormed (p : Config.Params) : Bool :=
  p.fixedPart && p.counterPart

/-- `d` in `0 .. 0xFF` (R81, form C8). -/
def isByte (d : Nat) : Bool := decide (d < 2 ^ 8)

/-- `v` in `0 .. 0xFFFF` (R81, form C16). -/
def isWord16 (v : Nat) : Bool := decide (v < 2 ^ 16)

/-- A character with a 7-bit ASCII code (R82, `CRC.STR`). -/
def isAscii (c : Char) : Bool := decide (c.toNat < 2 ^ 7)

/-- The operand ranges of R81 and R82, and the reserved opcodes of R71. -/
def AsmLine.wellFormed : AsmLine → Bool
  | .nop => true
  | .crcInit => true
  | .crcByte d => isByte d
  | .crcAppend v => isWord16 v
  | .arqInit => true
  | .arqSend v => isWord16 v
  | .rsvd op => decide (6 ≤ op) && decide (op ≤ 15)
  | .rspDelivered => true
  | .rspLost => true
  | .reset => true
  | .crcCalc bytes => bytes.all isByte
  | .crcStr text => text.all isAscii
  | .crcWord v => isWord16 v
  | .crcCheck bytes v => bytes.all isByte && isWord16 v

end Sys2Proof
end

