-- ==== Sys2Proof/Machine/Assembler.lean ====
section
/-! DEFINITION. The assembler of spec/30_encoding.md R81 and R82: a list of lines becomes the input samples of
one step each. A line is presented for one step; keeping a command presented until it is accepted is the
host's (Machine/HostDriver.lean). -/

namespace Sys2Proof.Machine

/-- The samples of `CRC.BYTE` lines. -/
def byteLines (bytes : List Nat) : List Inputs :=
  bytes.map fun b => (encode (.crcByte (BitVec.ofNat 8 b))).inputs

/-- `CRC.CALC b0, ..., bn-1` (R82). -/
def calcLines (bytes : List Nat) : List Inputs := (encode .crcInit).inputs :: byteLines bytes

/-- `CRC.WORD v`, high byte first (R82). -/
def wordLines (v : Nat) : List Inputs := byteLines [v / 2 ^ 8 % 2 ^ 8, v % 2 ^ 8]

/-- The steps of one line: its word for an instruction, the expansion for a pseudo-instruction (R82). -/
def lineSteps : AsmLine → List Inputs
  | .nop => [(encode .nop).inputs]
  | .crcInit => [(encode .crcInit).inputs]
  | .crcByte d => [(encode (.crcByte (BitVec.ofNat 8 d))).inputs]
  | .crcAppend v => [(encode (.crcAppend (BitVec.ofNat 16 v))).inputs]
  | .arqInit => [(encode .arqInit).inputs]
  | .arqSend v => [(encode (.arqSend (BitVec.ofNat 16 v))).inputs]
  | .rsvd op => [Inputs.ofCommand (commandWord (BitVec.ofNat 4 op) 0)]
  | .rspDelivered => [(encode .rspDelivered).inputs]
  | .rspLost => [(encode .rspLost).inputs]
  | .reset => [Inputs.ofReset]
  | .crcCalc bytes => calcLines bytes
  | .crcStr text => calcLines (text.map Char.toNat)
  | .crcWord v => wordLines v
  | .crcCheck bytes v => calcLines bytes ++ wordLines v

/-- The samples of a program, none if a line is ill formed. -/
def assemble (lines : List AsmLine) : Option (List Inputs) :=
  if lines.all AsmLine.wellFormed then some (lines.flatMap lineSteps) else none

end Sys2Proof.Machine
end

