-- ==== Sys2Proof/Machine/BlockStep.lean ====
section
/-! DEFINITION. The one-step function `Step(S, I)` of spec/70_reset_and_hazards.md R236, line by line and with
the parameters of R9 as an argument. The machine's own step dispatches instructions instead
(Machine/Cycle.lean); this function is what the two are compared by, and the model at other parameters
(the ceiling of R172, the counter widths of R162, the CRC parameters of R116). -/

namespace Sys2Proof.Machine

/-- Part (a) of R236: the channel response, routed by the arbiter. -/
def blockResponse (p : Config.Params) (s : State) (i : Inputs) : State :=
  if i.rspValid = true ∧ s.fsm ≠ .idle then
    if s.fsm = .awaitFrame ∧ i.rspDelivered = 1 then { s with fsm := .awaitAck }
    else if s.fsm = .awaitAck ∧ i.rspDelivered = 1 then
      { s with seq := s.seq ^^^ 1, result := .delivered, fsm := .idle }
    else retry p s
  else s

/-- Part (b) of R236: the writes of the command `w` into `s'`; what they read is the state `s` at the start
of the step. The last arm is the opcodes `0x6` to `0xF`. -/
def blockCommand (p : Config.Params) (s : State) (w : CommandWord) (s' : State) : State :=
  match (opField w).toNat with
  | 0x0 => s'
  | 0x1 => { s' with crc := p.crcInit }
  | 0x2 => { s' with crc := byteStep p.crcPoly s.crc (operandC8 w) }
  | 0x3 => { s' with app := operandC16 w }
  | 0x4 => { s' with seq := 0, attempt := 0, tag := 0x0000, result := .none }
  | 0x5 => { s' with tag := operandC16 w, attempt := 1, result := .none, fsm := .awaitFrame }
  | _ => { s' with errIllegal := true }

/-- `Step(S, I)` of R236. Readiness is taken from the state before the step. -/
def blockStep (p : Config.Params) (s : State) (i : Inputs) : State :=
  if i.rst = true then resetBlock p s
  else if i.cmdValid = true ∧ ¬((opField i.cmd = 0x4 ∨ opField i.cmd = 0x5) ∧ s.fsm ≠ .idle) then
    blockCommand p s i.cmd (blockResponse p s i)
  else blockResponse p s i

/-- The state after the steps with the inputs of a list, in order. -/
def blockRun (p : Config.Params) : List Inputs → State → State
  | [], s => s
  | i :: is, s => blockRun p is (blockStep p s i)

end Sys2Proof.Machine
end

