-- ==== Sys2Proof/Machine/Outputs.lean ====
section
/-! DEFINITION. The output ports (spec/10_state.md R32, R33), the unit on the channel port and the arbiter's
grant (spec/41_channel.md R130, R134; spec/30_encoding.md R76), and the valid detect (spec/42_arq.md R159).
They are the outputs of the step whose start state and inputs are given (R237). -/

namespace Sys2Proof.Machine

/-- Which unit is transmitted (R76). -/
inductive UnitKind where
  | frame
  | ack
deriving DecidableEq, Repr

/-- The unit descriptor, format U (R76). -/
structure UnitDescriptor where
  kind : UnitKind
  seq : Bit
  tag : Handle
deriving DecidableEq, Repr

/-- The arbiter's grant (R134): the unit on the channel port, if any. An acknowledgment has no payload. -/
def State.grant (s : State) : Option UnitDescriptor :=
  match s.fsm with
  | .idle => none
  | .awaitFrame => some ⟨.frame, s.seq, s.tag⟩
  | .awaitAck => some ⟨.ack, s.seq, 0x0000⟩

/-- The output ports that are functions of the state alone (R32). -/
structure StateOutputs where
  crcQ : CrcWord
  crcZero : Bool
  appQ : CrcWord
  seqQ : Bit
  attemptQ : AttemptCount
  fsmQ : BitVec 2
  tagQ : Handle
  resultQ : BitVec 2
  errIllegalQ : Bool
  busy : Bool
  txValid : Bool
  txKind : Bool
  txSeq : Bit
  txTag : Handle
deriving DecidableEq, Repr

/-- `tx_tag`: the handle of a frame, `0x0000` otherwise (R32). -/
def State.txTag (s : State) : Handle :=
  match s.fsm with
  | .idle => 0x0000
  | .awaitFrame => s.tag
  | .awaitAck => 0x0000

/-- The state outputs of a step (R32). -/
def State.outputs (s : State) : StateOutputs where
  crcQ := s.crc
  crcZero := s.crcZero
  appQ := s.app
  seqQ := s.seq
  attemptQ := s.attempt
  fsmQ := s.fsm.code
  tagQ := s.tag
  resultQ := s.result.code
  errIllegalQ := s.errIllegal
  busy := s.busy
  txValid := s.txValid
  txKind := s.txKind
  txSeq := s.seq
  txTag := s.txTag

/-- An effective response: the channel answers the outstanding transmission (R132, R135). -/
def State.answered (s : State) (i : Inputs) : Bool :=
  !i.rst && i.rspValid && s.busy

/-- `done`, the valid detect (R33, R159). -/
def State.done (s : State) (i : Inputs) : Bool :=
  !i.rst && decide (s.fsm = .awaitAck) && i.rspValid && decide (i.rspDelivered = 1)

/-- `loss`: a transmission is answered lost in this step (R33). -/
def State.loss (s : State) (i : Inputs) : Bool :=
  !i.rst && s.busy && i.rspValid && decide (i.rspDelivered = 0)

/-- The output ports that also depend on the step's inputs (R33). -/
structure StepOutputs where
  cmdReady : Bool
  done : Bool
  loss : Bool
deriving DecidableEq, Repr

/-- The input-dependent outputs of a step (R33). -/
def State.stepOutputs (s : State) (i : Inputs) : StepOutputs where
  cmdReady := s.cmdReady i.cmd
  done := s.done i
  loss := s.loss i

end Sys2Proof.Machine
end

