-- ==== Sys2Proof/Machine/Events.lean ====
section
/-! DEFINITION. The observable trace (spec/00_scope.md R17). It is not state of the block (spec/10_state.md
R36): the events of a run are a function of its start state and its inputs. -/

namespace Sys2Proof.Machine

/-- The events of R17; `cmd` carries the decoded command, that is its mnemonic and its operand. -/
inductive Event where
  | cmd (c : Instr)
  | tx (kind : UnitKind) (seq : Bit) (tag : Handle)
  | rsp (d : Bit)
  | done (seq : Bit) (tag : Handle) (attempts : AttemptCount)
  | gaveUp (seq : Bit) (tag : Handle) (attempts : AttemptCount)
  | reset
deriving DecidableEq, Repr

/-- What ends with an answered transmission: a delivered message (spec/42_arq.md R156), an abandoned one
(R172), or nothing. -/
def endEvents (p : Config.Params) (s : State) (d : Bit) : List Event :=
  if d = 1 then
    if s.fsm = .awaitAck then [.done s.seq s.tag s.attempt] else []
  else
    if atCeiling p s then [.gaveUp s.seq s.tag s.attempt] else []

/-- The events of an answer: the transmission that it completes, the answer, and what ends with it. A
response with nothing outstanding is no event (spec/41_channel.md R139). -/
def responseEvents (p : Config.Params) (s : State) (d : Bit) : List Event :=
  match s.grant with
  | none => []
  | some u => .tx u.kind u.seq u.tag :: .rsp d :: endEvents p s d

/-- The events of one step. Where a response and a command fall in one step the response is named first
(log entry 9). -/
def stepEvents (p : Config.Params) (s : State) (i : Inputs) : List Event :=
  if i.rst then [.reset]
  else
    (if i.rspValid then responseEvents p s i.rspDelivered else []) ++
      (if s.accepts i then [.cmd (decodeCommand i.cmd)] else [])

/-- The events of a run. -/
def trace (p : Config.Params) : List Inputs → State → List Event
  | [], _ => []
  | i :: is, s => stepEvents p s i ++ trace p is (blockStep p s i)

/-- Events of the channel port and of message ends, without the commands. -/
def Event.isChannel : Event → Bool
  | .cmd _ => false
  | .tx _ _ _ => true
  | .rsp _ => true
  | .done _ _ _ => true
  | .gaveUp _ _ _ => true
  | .reset => true

/-- A message was delivered. -/
def Event.isDone : Event → Bool
  | .cmd _ => false
  | .tx _ _ _ => false
  | .rsp _ => false
  | .done _ _ _ => true
  | .gaveUp _ _ _ => false
  | .reset => false

/-- The answers the channel gives in a list of input samples, in order. -/
def answers : List Inputs → List Bit
  | [] => []
  | i :: is => if i.rspValid then i.rspDelivered :: answers is else answers is

end Sys2Proof.Machine
end

