-- ==== Sys2Proof/Machine/HostDriver.lean ====
section
/-! DEFINITION. A host program: a finite list of commands presented in order, each kept presented until it is
accepted, against the answers of a channel (spec/70_reset_and_hazards.md R239). The host here never pauses and
the platform does not reset the block inside its run: DESIGN CHOICE, unsafe, log entry 13. -/

namespace Sys2Proof.Machine

/-- A host with commands still to be accepted, and the block. -/
structure Session where
  pending : List CommandWord
  block : State
deriving DecidableEq, Repr

/-- The inputs of a step: the first command not yet accepted, and the channel's answer if it gives one. R239 leaves
open whether the host may pause between commands (program P2 of spec/95_test_vectors.md does) and whether a
reset may fall inside the run: that the next command is presented in every step, and `rst` is never 1, is the
model's choice (DESIGN CHOICE, unsafe, log entry 13). -/
def Session.inputs (x : Session) (answer : Option Bit) : Inputs where
  rst := false
  cmdValid := !x.pending.isEmpty
  cmd := x.pending.headD 0
  rspValid := answer.isSome
  rspDelivered := answer.getD 0

/-- One step of host, block and channel. -/
def Session.step (p : Config.Params) (x : Session) (answer : Option Bit) : Session where
  pending := if x.block.accepts (x.inputs answer) then x.pending.tail else x.pending
  block := blockStep p x.block (x.inputs answer)

/-- The session after the steps with these answers. -/
def Session.run (p : Config.Params) : List (Option Bit) → Session → Session
  | [], x => x
  | a :: as, x => Session.run p as (x.step p a)

/-- The run has ended: every command was accepted and `fsm == IDLE` (R239). -/
def Session.ended (x : Session) : Bool := x.pending.isEmpty && decide (x.block.fsm = .idle)

end Sys2Proof.Machine
end

