-- ==== Sys2Proof/Safety.lean ====
section
/-! DEFINITION. What counts as a legal state and a run, in the terms the statements use: the invariants of
spec/10_state.md R39, runs of the machine on listed inputs, and what a run presents and delivers. -/

namespace Sys2Proof.Machine

/-- The invariants of R39 that are properties of one state. R39(a), and the fourth code of R39(b), hold by the
types. -/
structure Inv (p : Config.Params) (s : State) : Prop where
  /-- R39(b): `GAVE_UP` only with a ceiling -/
  gaveUpNeedsCeiling : s.result = .gaveUp → p.maxAttempts ≠ 0
  /-- R39(c): a message being sent has been attempted -/
  busyAttempted : s.busy = true → 1 ≤ s.attempt.toNat
  /-- R39(c): a message being sent has no outcome yet -/
  busyNoResult : s.busy = true → s.result = .none
  /-- R39(d), as a property of one state: with the counter at 0 the ProtocolState is a fresh one -/
  freshAtZero : s.attempt = 0 → s.fsm = .idle ∧ s.seq = 0 ∧ s.tag = 0x0000 ∧ s.result = .none
  /-- with a ceiling, a message makes at most that many attempts (spec/42_arq.md R172) -/
  withinCeiling : p.maxAttempts ≠ 0 → s.attempt.toNat ≤ p.maxAttempts

/-- The machine run on listed inputs, one step each. -/
def runInputs (is : List Inputs) (s : State) : Outcome :=
  Host.Core.run Sys2Proof.core is.length (s.present is)

/-- The architectural state of the ARQ unit. -/
def State.arqPart (s : State) : Bit × AttemptCount × Fsm × Handle × MessageResult :=
  (s.seq, s.attempt, s.fsm, s.tag, s.result)

/-- The architectural state of the CRC unit. -/
def State.crcPart (s : State) : CrcWord × CrcWord := (s.crc, s.app)

/-- The model's own fields, the inputs of the coming cycles. -/
def State.inputPart (s : State) : List Inputs × Nat := (s.inputs, s.draws)

/-- None of the samples is a reset. -/
def noReset (is : List Inputs) : Bool := is.all fun i => !i.rst

/-- The samples of the commands `CRC.BYTE` over a message, in order (spec/30_encoding.md R82). -/
def feed (bytes : List Byte) : List Inputs := bytes.map fun d => (encode (.crcByte d)).inputs

/-- The bytes of the `CRC.BYTE` commands presented in a list of samples, in order. They are always accepted
(spec/40_crc.md R113). -/
def bytesPresented : List Inputs → List Byte
  | [] => []
  | i :: is =>
    if i.cmdValid && opField i.cmd == 0x2 then operandC8 i.cmd :: bytesPresented is
    else bytesPresented is

/-- Number of messages delivered in a run. -/
def deliveredCount (p : Config.Params) (is : List Inputs) (s : State) : Nat :=
  ((trace p is s).filter Event.isDone).length

end Sys2Proof.Machine
end

