-- ==== Sys2Proof/Certificates/Slice0/Obligations.lean ====
section
/-! DEFINITION. The statements for the provers. Each docstring names the rule of spec/ its statement comes
from. `Config.hardware` is this hardware's parameters, `exec` the meaning of an instruction, `cycle` one clock
cycle on given inputs, `step` the machine's step, `runInputs` a run of the machine on listed inputs. The two
fields `inputs` and `draws` of the state are the model's own (log entry 1, DESIGN CHOICE): where a statement
says what they hold or that they are left alone, that is the model's choice and no rule's. -/

open Sys2Proof Sys2Proof.Machine

/-! ### Encoding -/

/-- Every instruction, with every operand, is what its encoding decodes to. -/
def Obligations.DecodeInvertsEncode : Prop :=
  ∀ i : Instr, decode (encode i) = i

/-- Decoding a word and encoding it again gives the word with its unused operand bits zero (R72, R73). -/
def Obligations.EncodeGivesCanonicalWord : Prop :=
  (∀ w : CommandWord, encode (decodeCommand w) = .command (w &&& usedBits w)) ∧
  (∀ d : Bit, encode (decodeResponse d) = .response d)

/-- The decoder picks the row of the opcode table whose match and mask the word has. -/
def Obligations.DecodedRowMatchesWord : Prop :=
  ∀ pw : PortWord, pw.toNat &&& (tableRow (decode pw)).2 = (tableRow (decode pw)).1

/-- R73: two words that differ in unused operand bits only are the same command in every step, the encoder
(the assembler) writes those bits as zero, and every command's row has the opcode bits only in its mask. -/
def Obligations.UnusedOperandBitsIgnored : Prop :=
  (∀ w w' : CommandWord, w &&& usedBits w = w' &&& usedBits w' →
    decodeCommand w = decodeCommand w' ∧
    ∀ (s : State) (i : Inputs), s.cmdReady w = s.cmdReady w' ∧
      cycle { i with cmd := w } s = cycle { i with cmd := w' } s) ∧
  (∀ (i : Instr) (w : CommandWord), encode i = .command w → w &&& ~~~(usedBits w) = 0) ∧
  (∀ w : CommandWord, (tableRow (decodeCommand w)).2 = 0xF0000)

/-- The words of R81's table, the examples written there, and the two responses of R75. That they are read
through `decodeTableWord` at 24 bits for a command and 8 bits for an answer is the model's choice (log entry 2,
DESIGN CHOICE): R81 numbers command words only, and R75 gives an answer one bit and no word. -/
def Obligations.WrittenWordsDecode : Prop :=
  decodeTableWord 24 0x00000 = some .nop ∧
  decodeTableWord 24 0x10000 = some .crcInit ∧
  decodeTableWord 24 0x20031 = some (.crcByte 0x31) ∧
  decodeTableWord 24 0x329B1 = some (.crcAppend 0x29B1) ∧
  decodeTableWord 24 0x40000 = some .arqInit ∧
  decodeTableWord 24 0x50001 = some (.arqSend 0x0001) ∧
  decodeTableWord 24 0x60000 = some .rsvd6 ∧
  decodeTableWord 24 0xF0000 = some .rsvdF ∧
  decodeTableWord 8 1 = some .rspDelivered ∧
  decodeTableWord 8 0 = some .rspLost

/-! ### CRC arithmetic -/

/-- R100, on numbers: double, reduce by the polynomial when bit 15 was set, mask to 16 bits; bit 0 of the
result is bit 15 of the argument. -/
def Obligations.BitStepShiftsAndReduces : Prop :=
  ∀ c : CrcWord,
    (bitStep Config.hardware.crcPoly c).toNat =
      (if 2 ^ 15 ≤ c.toNat then ((2 * c.toNat) ^^^ 0x1021) % 2 ^ 16 else 2 * c.toNat % 2 ^ 16) ∧
    (bitStep Config.hardware.crcPoly c).getLsbD 0 = c.getLsbD 15

/-- R105: the XOR equations, the table form, and the table's first sixteen entries and its last. -/
def Obligations.ByteStepMeetsEquations : Prop :=
  (∀ (c : CrcWord) (d : Byte), byteStep Config.hardware.crcPoly c d = byteStepXor c d) ∧
  (∀ (c : CrcWord) (d : Byte), byteStep Config.hardware.crcPoly c d =
    ((c &&& 0x00FF) <<< 8) ^^^ crcTable Config.hardware.crcPoly (highByte c ^^^ d)) ∧
  (List.range 16).map (fun k => crcTable Config.hardware.crcPoly (BitVec.ofNat 8 k)) =
    [0x0000, 0x1021, 0x2042, 0x3063, 0x4084, 0x50A5, 0x60C6, 0x70E7,
     0x8108, 0x9129, 0xA14A, 0xB16B, 0xC18C, 0xD1AD, 0xE1CE, 0xF1EF] ∧
  crcTable Config.hardware.crcPoly 0xFF = 0x1EF0

/-- R111: a message followed by its own CRC has CRC zero, for every polynomial and initial value. -/
def Obligations.CrcSelfCheck : Prop :=
  ∀ (poly init : CrcWord) (s : List Byte), crc16 poly init (append s (crc16 poly init s)) = 0x0000

/-- R115: the steps are linear over XOR, for every polynomial, and so are CRCs of equally long sequences. -/
def Obligations.CrcIsLinear : Prop :=
  ∀ poly : CrcWord,
    (∀ a b : CrcWord, bitStep poly (a ^^^ b) = bitStep poly a ^^^ bitStep poly b) ∧
    (∀ (a b : CrcWord) (d e : Byte),
      byteStep poly (a ^^^ b) (d ^^^ e) = byteStep poly a d ^^^ byteStep poly b e) ∧
    (∀ (c : CrcWord) (d : Byte), byteStep poly c d = byteStep poly (c ^^^ (d.setWidth 16 <<< 8)) 0x00) ∧
    (∀ (init : CrcWord) (x y z : List Byte), x.length = y.length → y.length = z.length →
      crc16 poly init x ^^^ crc16 poly init y ^^^ crc16 poly init z =
        crc16 poly init (List.zipWith (· ^^^ ·) (List.zipWith (· ^^^ ·) x y) z)) ∧
    byteStep poly 0x0000 0x00 = 0x0000

/-- R109: `APPEND` adds two bytes, the high byte first. -/
def Obligations.AppendAddsHighByteFirst : Prop :=
  ∀ (s : List Byte) (v : CrcWord),
    append s v = s ++ [BitVec.ofNat 8 (v.toNat / 2 ^ 8), BitVec.ofNat 8 (v.toNat % 2 ^ 8)] ∧
    (append s v).length = s.length + 2

/-- Of all two-byte suffixes only the message's own CRC leaves residue zero, at this hardware's polynomial
and any initial value (sharpens R110's and R112's "leaves a non-zero residue"). -/
def Obligations.ResidueZeroExactlyForOwnCrc : Prop :=
  ∀ (init : CrcWord) (s : List Byte) (v : CrcWord),
    crc16 Config.hardware.crcPoly init (append s v) = 0x0000 ↔ v = crc16 Config.hardware.crcPoly init s

/-- Where the byte `0x00` leaves the register as it is: at `0x0000`, and at `0xF01F`. R108's remark names the
first only; its own pseudocode and R100, R101 give both (log entry 8, DEDUCED: the model follows them). -/
def Obligations.ZeroByteFixedPoints : Prop :=
  ∀ c : CrcWord, byteStep Config.hardware.crcPoly c 0x00 = c ↔ c = 0x0000 ∨ c = 0xF01F

/-! ### The instructions: each completes, with this next state and nothing else changed -/

/-- R190: `NOP` is any word with opcode 0, is always ready, writes nothing, and a step that presents it is
the same in state and outputs as one that presents no command. -/
def Obligations.NopChangesNothing : Prop :=
  ∀ s : State, exec .nop s = .next s ∧
    ∀ w : CommandWord, opField w = 0x0 →
      decodeCommand w = .nop ∧ s.cmdReady w = true ∧
      ∀ i : Inputs,
        cycle { i with cmdValid := true, cmd := w } s = cycle { i with cmdValid := false, cmd := w } s ∧
        s.stepOutputs { i with cmdValid := true, cmd := w } =
          s.stepOutputs { i with cmdValid := false, cmd := w }

/-- R191: each of the ten reserved commands sets `err_illegal` and nothing else; they are always ready,
whatever their operand bits; in a step with a response both take effect. -/
def Obligations.ReservedCommandsOnlyMark : Prop :=
  (∀ (s : State) (i : Instr),
    i ∈ [Instr.rsvd6, .rsvd7, .rsvd8, .rsvd9, .rsvdA, .rsvdB, .rsvdC, .rsvdD, .rsvdE, .rsvdF] →
      exec i s = .next { s with errIllegal := true }) ∧
  (∀ (s : State) (w : CommandWord), 0x6 ≤ (opField w).toNat →
    decodeCommand w ∈ [Instr.rsvd6, .rsvd7, .rsvd8, .rsvd9, .rsvdA, .rsvdB, .rsvdC, .rsvdD, .rsvdE, .rsvdF] ∧
    s.cmdReady w = true ∧
    ∀ d : Bit, cycle (Inputs.ofBoth w d) s =
      andThen (exec (decodeResponse d) s) fun t => .next { t with errIllegal := true })

/-- R107: `CRC.INIT`, any word with opcode 1, loads `0xFFFF` into `crc` and writes nothing else, in every state,
busy or not; `crc_zero` becomes 0; twice is once; after reset it is redundant. -/
def Obligations.CrcInitLoadsInitialValue : Prop :=
  (∀ s : State, exec .crcInit s = .next { s with crc := 0xFFFF } ∧
    ({ s with crc := 0xFFFF } : State).outputs.crcZero = false ∧
    andThen (exec .crcInit s) (exec .crcInit) = exec .crcInit s ∧
    ∀ w : CommandWord, opField w = 0x1 → decodeCommand w = .crcInit ∧ s.cmdReady w = true) ∧
  exec .crcInit State.reset = .next State.reset

/-- `CRC.BYTE d` (R108) writes to `crc` what the XOR equations of R105 give, and nothing else, in every state;
`crc_zero` tells whether that is zero; any word with opcode 2 is the command, its byte in bits 7:0. -/
def Obligations.CrcByteFoldsOneByte : Prop :=
  ∀ (d : Byte) (s : State),
    exec (.crcByte d) s = .next { s with crc := byteStepXor s.crc d } ∧
    (({ s with crc := byteStepXor s.crc d } : State).outputs.crcZero = true ↔
      byteStep Config.hardware.crcPoly s.crc d = 0x0000) ∧
    ∀ w : CommandWord, opField w = 0x2 →
      decodeCommand w = .crcByte (BitVec.ofNat 8 (w.toNat % 2 ^ 8)) ∧ s.cmdReady w = true

/-- `CRC.APPEND v` (R110) writes `app` only, in every state; the two halves of `app_q` are the suffix that
`APPEND` adds to any message. -/
def Obligations.CrcAppendLatchesSuffix : Prop :=
  ∀ (v : CrcWord) (s : State),
    exec (.crcAppend v) s = .next { s with app := v } ∧
    (∀ (m : List Byte) (t : State), exec (.crcAppend v) s = .next t →
      append m v = m ++ [highByte t.outputs.appQ, lowByte t.outputs.appQ]) ∧
    ∀ w : CommandWord, opField w = 0x3 →
      decodeCommand w = .crcAppend (BitVec.ofNat 16 (w.toNat % 2 ^ 16)) ∧ s.cmdReady w = true

/-- R152: `ARQ.INIT` creates a fresh ProtocolState when idle, is held when busy, and writes nothing else;
right after reset it changes nothing. -/
def Obligations.ArqInitCreatesFreshProtocol : Prop :=
  (∀ s : State,
    (s.fsm = .idle →
      exec .arqInit s = .next { s with seq := 0, attempt := 0, tag := 0x0000, result := .none }) ∧
    (s.fsm ≠ .idle → exec .arqInit s = .next s) ∧
    ∀ w : CommandWord, opField w = 0x4 →
      decodeCommand w = .arqInit ∧ s.cmdReady w = decide (s.fsm = .idle)) ∧
  exec .arqInit State.reset = .next State.reset

/-- R153: `ARQ.SEND v` starts a message when idle, for every handle: the frame with the current sequence bit
and that handle is then on the channel port. When busy it is held. -/
def Obligations.ArqSendBeginsMessage : Prop :=
  ∀ (v : Handle) (s : State),
    (s.fsm = .idle →
      exec (.arqSend v) s = .next { s with tag := v, attempt := 1, result := .none, fsm := .awaitFrame } ∧
      ∀ t : State, exec (.arqSend v) s = .next t →
        t.outputs.txValid = true ∧ t.outputs.txKind = false ∧ t.outputs.txSeq = s.seq ∧
          t.outputs.txTag = v) ∧
    (s.fsm ≠ .idle → exec (.arqSend v) s = .next s) ∧
    ∀ w : CommandWord, opField w = 0x5 →
      decodeCommand w = .arqSend (BitVec.ofNat 16 (w.toNat % 2 ^ 16)) ∧
        s.cmdReady w = decide (s.fsm = .idle)

/-- R163: while busy `ARQ.SEND` and `ARQ.INIT` are not ready, and a step that presents one is the step without
it; every other command stays ready; idle and outside reset every presented command is accepted. Readiness is that of
the state before the step, so the step that completes a message still holds them. -/
def Obligations.BusyHoldsArqCommands : Prop :=
  (∀ (s : State) (w : CommandWord), s.fsm ≠ .idle → opField w = 0x4 ∨ opField w = 0x5 →
    s.cmdReady w = false ∧
    ∀ i : Inputs, s.accepts { i with cmd := w } = false ∧
      cycle { i with cmdValid := true, cmd := w } s = cycle { i with cmdValid := false, cmd := w } s) ∧
  (∀ (s : State) (w : CommandWord), opField w ≠ 0x4 → opField w ≠ 0x5 → s.cmdReady w = true) ∧
  (∀ (s : State) (i : Inputs), s.fsm = .idle → i.rst = false → i.cmdValid = true → s.accepts i = true)

/-- R137, with R154 and R156: what a delivered answer does in each of the three states, that nothing else
changes, when `done` is 1, and that no ARQ command is accepted in the step of an effective answer. -/
def Obligations.RspDeliveredTransitions : Prop :=
  ∀ s : State,
    (s.fsm = .awaitFrame → exec .rspDelivered s = .next { s with fsm := .awaitAck }) ∧
    (s.fsm = .awaitAck →
      exec .rspDelivered s = .next { s with seq := s.seq + 1, result := .delivered, fsm := .idle }) ∧
    (s.fsm = .idle → exec .rspDelivered s = .next s) ∧
    (∀ i : Inputs, i.rst = false → i.rspValid = true → i.rspDelivered = 1 →
      (s.done i = true ↔ s.fsm = .awaitAck) ∧ s.loss i = false ∧
      (s.fsm ≠ .idle → s.accepts i = true → opField i.cmd ≠ 0x4 ∧ opField i.cmd ≠ 0x5))

/-- R138, with R155, R157 and R158: a lost answer, to the frame or to the acknowledgment, retries with the counter
one up (stopping at its largest value) and changes nothing else; the same frame is then on the channel port.
When idle nothing happens. `loss` is 1 exactly when busy. -/
def Obligations.RspLostRetries : Prop :=
  ∀ s : State,
    (s.fsm ≠ .idle →
      exec .rspLost s = .next
        { s with attempt := if s.attempt = 0xFFFFFFFF then 0xFFFFFFFF else s.attempt + 1, fsm := .awaitFrame } ∧
      ∀ t : State, exec .rspLost s = .next t → t.grant = some ⟨.frame, s.seq, s.tag⟩) ∧
    (s.fsm = .idle → exec .rspLost s = .next s) ∧
    (∀ i : Inputs, i.rst = false → i.rspValid = true → i.rspDelivered = 0 →
      (s.loss i = true ↔ s.fsm ≠ .idle) ∧ s.done i = false)

/-- R139: a response with nothing outstanding changes nothing and raises neither pulse. -/
def Obligations.StrayResponseIgnored : Prop :=
  ∀ (s : State) (d : Bit), s.fsm = .idle →
    exec (decodeResponse d) s = .next s ∧
    ∀ i : Inputs, s.done i = false ∧ s.loss i = false ∧
      cycle { i with rspValid := true, rspDelivered := d } s = cycle { i with rspValid := false } s

/-! ### Frames over all instructions -/

/-- R38 with R21 to R29: each element changes only by the instructions that its rule names. The last clause, that
no instruction touches the inputs of the coming cycles, is about the model's own two fields and is the model's
choice (log entry 1, DESIGN CHOICE); no rule speaks of them. -/
def Obligations.OnlyTheirWritersChangeElements : Prop :=
  ∀ (i : Instr) (s t : State), exec i s = .next t →
    (t.crc ≠ s.crc → i = .crcInit ∨ ∃ d, i = .crcByte d) ∧
    (t.app ≠ s.app → ∃ v, i = .crcAppend v) ∧
    (t.seq ≠ s.seq → i = .arqInit ∨ i = .rspDelivered) ∧
    (t.attempt ≠ s.attempt → i = .arqInit ∨ (∃ v, i = .arqSend v) ∨ i = .rspLost) ∧
    (t.fsm ≠ s.fsm → (∃ v, i = .arqSend v) ∨ i = .rspDelivered ∨ i = .rspLost) ∧
    (t.tag ≠ s.tag → i = .arqInit ∨ ∃ v, i = .arqSend v) ∧
    (t.result ≠ s.result → i = .arqInit ∨ (∃ v, i = .arqSend v) ∨ i = .rspDelivered) ∧
    (t.errIllegal ≠ s.errIllegal → 0x60000 ≤ (tableRow i).1) ∧
    t.inputPart = s.inputPart

/-- R3: what the CRC unit becomes in a step depends on the CRC unit and the inputs only, and what the ARQ unit
becomes, the unit on the channel port with it, on the ARQ unit and the inputs only. -/
def Obligations.UnitsDoNotInterfere : Prop :=
  ∀ (i : Inputs) (s s' t t' : State), cycle i s = .next t → cycle i s' = .next t' →
    (s.crcPart = s'.crcPart → t.crcPart = t'.crcPart) ∧
    (s.arqPart = s'.arqPart → t.arqPart = t'.arqPart ∧ t.grant = t'.grant)

/-- R207(2): an effective response and an accepted command of one step take effect in either order alike, and
the step is both; when idle the response has no effect and the step is the command. -/
def Obligations.CommandAndResponseCommute : Prop :=
  ∀ (s : State) (w : CommandWord) (d : Bit),
    (s.busy = true → s.cmdReady w = true →
      cycle (Inputs.ofBoth w d) s = andThen (exec (decodeResponse d) s) (exec (decodeCommand w)) ∧
      cycle (Inputs.ofBoth w d) s = andThen (exec (decodeCommand w) s) (exec (decodeResponse d))) ∧
    (s.busy = false → cycle (Inputs.ofBoth w d) s = exec (decodeCommand w) s)

/-- R62: a CRC command and an ARQ command or a channel answer commute, in every state. -/
def Obligations.CrcCommandsCommuteWithArq : Prop :=
  ∀ (s : State) (c e : Instr),
    (c = .crcInit ∨ (∃ d, c = .crcByte d) ∨ ∃ v, c = .crcAppend v) →
    (e = .arqInit ∨ (∃ v, e = .arqSend v) ∨ e = .rspDelivered ∨ e = .rspLost) →
    andThen (exec c s) (exec e) = andThen (exec e s) (exec c)

/-! ### The step -/

/-- Where a step's inputs come from (the model's choice, log entry 1): the oldest listed sample, used up by the
step, or, with none listed, the free environment. -/
def Obligations.StepSamplesInputs : Prop :=
  (∀ (s : State) (i : Inputs) (is : List Inputs), s.inputs = i :: is →
    step s = cycle i { s with inputs := is }) ∧
  (∀ s : State, s.inputs = [] →
    step s = cycle (Config.environment s.draws) { s with draws := s.draws + 1 }) ∧
  (∀ (s : State) (pw : PortWord), step (s.present [pw.inputs]) = cycle pw.inputs s)

/-- A step runs the decoded instruction: the presented command, the channel's answer, or the answer and then the
command if it was ready before the step (R236; the order is log entry 10, where the sample comes from log
entry 1). -/
def Obligations.StepRunsDecodedInstruction : Prop :=
  ∀ s : State, s.nextInputs.rst = false →
    (s.nextInputs.cmdValid = true → s.nextInputs.rspValid = false →
      step s = exec (decodeCommand s.nextInputs.cmd) s.takeInputs) ∧
    (s.nextInputs.cmdValid = false → s.nextInputs.rspValid = true →
      step s = exec (decodeResponse s.nextInputs.rspDelivered) s.takeInputs) ∧
    (s.nextInputs.cmdValid = true → s.nextInputs.rspValid = true →
      step s = andThen (exec (decodeResponse s.nextInputs.rspDelivered) s.takeInputs) fun t =>
        if s.cmdReady s.nextInputs.cmd then exec (decodeCommand s.nextInputs.cmd) t else .next t)

/-- The machine's step, which dispatches instructions, is R236's one-step function on the sampled inputs; it is
total. Which sample a step reads, and that it is then used up, is the model's choice (log entry 1). -/
def Obligations.StepIsOneStepFunction : Prop :=
  ∀ s : State, step s = .next (blockStep Config.hardware s.takeInputs s.nextInputs)

/-- A run of the machine on listed inputs is the fold of the spec's one-step function (R236) over them. That a
run's inputs are a list held in the state, and the second clause, that the run leaves the samples listed after
them and the draw counter, are the model's choice (log entry 1, DESIGN CHOICE); no rule gives them. -/
def Obligations.RunFoldsStepFunction : Prop :=
  ∀ (is : List Inputs) (s : State), runInputs is s = .next (blockRun Config.hardware is s) ∧
    (blockRun Config.hardware is s).inputPart = s.inputPart

/-- R232: in a reset step the block takes its reset state whatever else is presented, no command is
accepted and neither pulse is raised; several reset steps are one. -/
def Obligations.ResetOverridesEverything : Prop :=
  ∀ (i : Inputs) (s : State), i.rst = true →
    cycle i s = .next { State.reset with inputs := s.inputs, draws := s.draws } ∧
    s.accepts i = false ∧ s.done i = false ∧ s.loss i = false ∧
    ∀ j : Inputs, j.rst = true → andThen (cycle i s) (cycle j) = cycle i s

/-- R231: the state a reset step leaves and the outputs after it. -/
def Obligations.ResetStateAndOutputs : Prop :=
  ∀ (i : Inputs) (s t : State), i.rst = true → cycle i s = .next t →
    (t.crc = 0xFFFF ∧ t.seq = 0 ∧ t.attempt = 0 ∧ t.fsm = .idle ∧ t.tag = 0x0000 ∧ t.result = .none ∧
      t.app = 0x0000 ∧ t.errIllegal = false) ∧
    t.outputs = { crcQ := 0xFFFF, crcZero := false, appQ := 0, seqQ := 0, attemptQ := 0, fsmQ := 0b00,
                  tagQ := 0, resultQ := 0b00, errIllegalQ := false, busy := false, txValid := false,
                  txKind := false, txSeq := 0, txTag := 0 } ∧
    t.outputs = State.reset.outputs

/-- R238: a step outside reset with no accepted command and no effective response changes nothing. -/
def Obligations.QuietStepChangesNothing : Prop :=
  ∀ (i : Inputs) (s : State), i.rst = false → s.accepts i = false → s.answered i = false →
    cycle i s = .next s

/-- R80 and spec/93_implementation_defined.md U6: `cmd` without `cmd_valid`, `rsp_delivered` without `rsp_valid`,
and everything in a reset step are ignored. -/
def Obligations.UnreadInputsIgnored : Prop :=
  ∀ (i j : Inputs) (s : State), i.rst = j.rst →
    (i.rst = false → i.cmdValid = j.cmdValid ∧ i.rspValid = j.rspValid ∧
      (i.cmdValid = true → i.cmd = j.cmd) ∧ (i.rspValid = true → i.rspDelivered = j.rspDelivered)) →
    cycle i s = cycle j s

/-- R151: the complete transition table of the ARQ state, by the command a step accepts and the answer that is
effective in it (with no ceiling, as in this hardware). -/
def Obligations.TransitionTable : Prop :=
  ∀ (i : Inputs) (s t : State), i.rst = false → cycle i s = .next t →
    (s.fsm = .idle →
      (i.cmdValid = true → opField i.cmd = 0x4 → t.arqPart = (0, 0, .idle, 0x0000, .none)) ∧
      (i.cmdValid = true → opField i.cmd = 0x5 →
        t.arqPart = (s.seq, 1, .awaitFrame, operandC16 i.cmd, .none)) ∧
      (i.cmdValid = false ∨ (opField i.cmd ≠ 0x4 ∧ opField i.cmd ≠ 0x5) → t.arqPart = s.arqPart)) ∧
    (s.fsm ≠ .idle → i.rspValid = false → t.arqPart = s.arqPart) ∧
    (s.fsm = .awaitFrame → i.rspValid = true → i.rspDelivered = 1 →
      t.arqPart = (s.seq, s.attempt, .awaitAck, s.tag, s.result)) ∧
    (s.fsm = .awaitAck → i.rspValid = true → i.rspDelivered = 1 →
      t.arqPart = (s.seq ^^^ 1, s.attempt, .idle, s.tag, .delivered)) ∧
    (s.fsm ≠ .idle → i.rspValid = true → i.rspDelivered = 0 →
      t.arqPart = (s.seq, BitVec.ofNat 32 (min (s.attempt.toNat + 1) (2 ^ 32 - 1)), .awaitFrame, s.tag, s.result))

/-! ### Outputs -/

/-- R134: the arbiter grants the channel port by `fsm` alone, and the acknowledgment only after the frame's
transmission ended delivered. -/
def Obligations.ArbiterGrantsByFsm : Prop :=
  ∀ s : State,
    (s.fsm = .idle → s.grant = none ∧ s.outputs.txValid = false ∧ s.outputs.txKind = false ∧
      s.outputs.txTag = 0x0000) ∧
    (s.fsm = .awaitFrame → s.grant = some ⟨.frame, s.seq, s.tag⟩ ∧ s.outputs.txValid = true ∧
      s.outputs.txKind = false ∧ s.outputs.txTag = s.tag) ∧
    (s.fsm = .awaitAck → s.grant = some ⟨.ack, s.seq, 0x0000⟩ ∧ s.outputs.txValid = true ∧
      s.outputs.txKind = true ∧ s.outputs.txTag = 0x0000) ∧
    s.outputs.txSeq = s.seq ∧
    (∀ (i : Inputs) (t : State), cycle i s = .next t → s.fsm ≠ .awaitAck → t.fsm = .awaitAck →
      s.fsm = .awaitFrame ∧ i.rst = false ∧ i.rspValid = true ∧ i.rspDelivered = 1)

/-- R77: the code of `fsm`, that `0b11` is not used, and `tx_kind` and `tx_valid` read off the code. -/
def Obligations.FsmCode : Prop :=
  ∀ s : State,
    (s.outputs.fsmQ = 0b00 ↔ s.fsm = .idle) ∧ (s.outputs.fsmQ = 0b01 ↔ s.fsm = .awaitFrame) ∧
    (s.outputs.fsmQ = 0b10 ↔ s.fsm = .awaitAck) ∧ s.outputs.fsmQ ≠ 0b11 ∧
    s.outputs.txKind = s.outputs.fsmQ.getLsbD 1 ∧
    s.outputs.txValid = (s.outputs.fsmQ.getLsbD 1 || s.outputs.fsmQ.getLsbD 0)

/-- R30: the four status bits as functions of the state, and their values after reset. -/
def Obligations.StatusBits : Prop :=
  (∀ s : State,
    (s.outputs.crcZero = true ↔ s.crc = 0x0000) ∧ (s.outputs.busy = true ↔ s.fsm ≠ .idle) ∧
    (s.outputs.txValid = true ↔ s.fsm ≠ .idle) ∧ (s.outputs.txKind = true ↔ s.fsm = .awaitAck)) ∧
  State.reset.outputs.crcZero = false ∧ State.reset.outputs.busy = false ∧
  State.reset.outputs.txValid = false ∧ State.reset.outputs.txKind = false

/-- R33: when `cmd_ready`, `done` and `loss` are 1; `cmd_ready` does not depend on `cmd_valid`. -/
def Obligations.PulsesExact : Prop :=
  ∀ (s : State) (i : Inputs),
    ((s.stepOutputs i).cmdReady = false ↔ s.fsm ≠ .idle ∧ (opField i.cmd = 0x4 ∨ opField i.cmd = 0x5)) ∧
    ((s.stepOutputs i).done = true ↔
      i.rst = false ∧ s.fsm = .awaitAck ∧ i.rspValid = true ∧ i.rspDelivered = 1) ∧
    ((s.stepOutputs i).loss = true ↔
      i.rst = false ∧ s.fsm ≠ .idle ∧ i.rspValid = true ∧ i.rspDelivered = 0) ∧
    (∀ b : Bool, (s.stepOutputs { i with cmdValid := b }).cmdReady = (s.stepOutputs i).cmdReady)

/-- R32, port by port, with the codes of R77 and R78 written out: what every state shows on the ports that are
functions of the state alone. The unused code `0b11` is never shown, nor `GAVE_UP` in a state with the
invariants of this hardware, which has no ceiling. -/
def Obligations.StateOutputPorts : Prop :=
  (∀ s : State,
    s.outputs.crcQ = s.crc ∧ s.outputs.appQ = s.app ∧ s.outputs.seqQ = s.seq ∧
    s.outputs.attemptQ = s.attempt ∧ s.outputs.tagQ = s.tag ∧ s.outputs.errIllegalQ = s.errIllegal ∧
    (s.outputs.resultQ = 0b00 ↔ s.result = .none) ∧ (s.outputs.resultQ = 0b01 ↔ s.result = .delivered) ∧
    (s.outputs.resultQ = 0b10 ↔ s.result = .gaveUp) ∧ s.outputs.resultQ ≠ 0b11 ∧
    (s.outputs.fsmQ = 0b00 ↔ s.fsm = .idle) ∧ (s.outputs.fsmQ = 0b01 ↔ s.fsm = .awaitFrame) ∧
    (s.outputs.fsmQ = 0b10 ↔ s.fsm = .awaitAck) ∧
    (s.outputs.crcZero = true ↔ s.crc = 0x0000) ∧ (s.outputs.busy = true ↔ s.fsm ≠ .idle) ∧
    (s.outputs.txValid = true ↔ s.fsm ≠ .idle) ∧ (s.outputs.txKind = true ↔ s.fsm = .awaitAck) ∧
    s.outputs.txSeq = s.seq ∧ s.outputs.txTag = if s.fsm = .awaitFrame then s.tag else 0x0000) ∧
  (∀ s : State, Inv Config.hardware s → s.outputs.resultQ ≠ 0b10)

/-! ### Invariants of every step -/

/-- The invariants of R39 hold after reset. -/
def Obligations.InvHoldsAtReset : Prop := Inv Config.hardware State.reset

/-- Every step of the machine, on any inputs, keeps the invariants of R39. -/
def Obligations.StepKeepsInv : Prop :=
  ∀ s t : State, Inv Config.hardware s → step s = .next t → Inv Config.hardware t

/-- The one-step function keeps the invariants at all well-formed parameters: with a ceiling `M` no message makes
more than `M` attempts (R172), and without one no message is given up (R39(b)). Well-formed keeps the counter
width in 1 to 32 (log entry 5, DESIGN CHOICE); R9 and R162 leave `ATTEMPT_W` open, and wider or unbounded
counters are not covered. -/
def Obligations.BlockStepKeepsInvAtWellFormedParameters : Prop :=
  ∀ (p : Config.Params) (s : State) (i : Inputs), p.wellFormed = true → Inv p s → Inv p (blockStep p s i)

/-- R172's pseudocode, for a lost answer while busy under a ceiling; in both cases `loss` is 1 and `done` 0. -/
def Obligations.CeilingAbandonsLastAttempt : Prop :=
  ∀ (p : Config.Params) (s : State), p.wellFormed = true → p.maxAttempts ≠ 0 → s.fsm ≠ .idle →
    (p.maxAttempts ≤ s.attempt.toNat →
      blockStep p s (Inputs.ofResponse 0) = { s with fsm := .idle, result := .gaveUp } ∧
      trace p [Inputs.ofResponse 0] s = [.tx (if s.fsm = .awaitFrame then .frame else .ack) s.seq s.txTag,
        .rsp 0, .gaveUp s.seq s.tag s.attempt]) ∧
    (s.attempt.toNat < p.maxAttempts →
      blockStep p s (Inputs.ofResponse 0) = { s with attempt := s.attempt + 1, fsm := .awaitFrame }) ∧
    s.loss (Inputs.ofResponse 0) = true ∧ s.done (Inputs.ofResponse 0) = false

/-- R29: `err_illegal` is set by an accepted reserved command and cleared only by reset, where it is 0, and it
changes no other behaviour. -/
def Obligations.ErrIllegalSticky : Prop :=
  ∀ (i : Inputs) (s t : State), cycle i s = .next t →
    (i.rst = true → t.errIllegal = false) ∧
    (i.rst = false → (t.errIllegal = true ↔
      s.errIllegal = true ∨ (i.cmdValid = true ∧ 0x6 ≤ (opField i.cmd).toNat))) ∧
    (∀ (b : Bool) (t' : State), cycle i { s with errIllegal := b } = .next t' →
      { t' with errIllegal := t.errIllegal } = t) ∧
    t.outputs.errIllegalQ = t.errIllegal

/-- R164: a message that is being sent ends in a step only by reset or by the delivered acknowledgment, never
by a command. -/
def Obligations.OnlyResetOrDoneEndsMessage : Prop :=
  ∀ s t : State, step s = .next t → s.busy = true → t.busy = false →
    s.nextInputs.rst = true ∨ s.done s.nextInputs = true

/-- Within a message (R165) the handle and the sequence bit do not change and there is no outcome; when it is
delivered the bit flips once. -/
def Obligations.MessageFixedWhileBusy : Prop :=
  ∀ (i : Inputs) (s t : State), i.rst = false → cycle i s = .next t → s.busy = true →
    t.tag = s.tag ∧ s.attempt.toNat ≤ t.attempt.toNat ∧
    (t.busy = true → t.seq = s.seq ∧ t.result = s.result) ∧
    (t.busy = false → t.seq = s.seq + 1 ∧ t.result = .delivered ∧ t.attempt = s.attempt)

/-- The unit on the channel port is stable until it is answered (R133), outside reset. -/
def Obligations.UnitStableUntilAnswered : Prop :=
  ∀ (i : Inputs) (s t : State), i.rst = false → s.busy = true → s.answered i = false → cycle i s = .next t →
    t.grant = s.grant ∧ s.grant ≠ none

/-! ### Runs of the machine -/

/-- R159: when `done` is 1, the last two transmissions were the frame and the acknowledgment of one and the same
attempt, both answered delivered, with the bit and handle of the message. From any idle state, any run. -/
def Obligations.DoneMeansFrameAndAckOfOneAttempt : Prop :=
  ∀ (is : List Inputs) (s t : State) (i : Inputs), s.busy = false → runInputs is s = .next t →
    t.done i = true →
    ∃ before : List Event, (trace Config.hardware (is ++ [i]) s).filter Event.isChannel =
      before ++ [.tx .frame t.seq t.tag, .rsp 1, .tx .ack t.seq 0x0000, .rsp 1, .done t.seq t.tag t.attempt]

/-- R166: over a run with no reset and no accepted `ARQ.INIT`, the sequence bit moves by the number of messages
delivered, so from bit 0 it is that number modulo 2; a message begun then is sent with that bit. -/
def Obligations.SequenceBitAlternates : Prop :=
  ∀ (is : List Inputs) (s : State),
    (∀ e ∈ trace Config.hardware is s, e ≠ .reset ∧ e ≠ .cmd .arqInit) →
    ∃ t : State, runInputs is s = .next t ∧
      t.seq = s.seq + BitVec.ofNat 1 (deliveredCount Config.hardware is s) ∧
      (s.seq = 0 → t.seq.toNat = deliveredCount Config.hardware is s % 2) ∧
      (∀ (v : Handle) (u : State), t.fsm = .idle → exec (.arqSend v) t = .next u →
        u.grant = some ⟨.frame, t.seq, v⟩)

/-- R161 and R162: while a message sent from an idle state is not yet delivered, and there is no reset, the
counter is one more than the losses so far, or its largest value; the bit and the handle are the message's. -/
def Obligations.AttemptIsOnePlusLosses : Prop :=
  ∀ (v : Handle) (is : List Inputs) (s : State), s.busy = false → noReset is = true →
    deliveredCount Config.hardware (Inputs.ofCommand (commandWord 0x5 v) :: is) s = 0 →
    ∃ t : State, runInputs (Inputs.ofCommand (commandWord 0x5 v) :: is) s = .next t ∧
      t.busy = true ∧ t.tag = v ∧ t.seq = s.seq ∧
      t.attempt.toNat = min ((answers is).count 0 + 1) (2 ^ 32 - 1)

/-- R167: without reset, a message whose frame is on the channel is delivered in a run exactly when two
consecutive answers are delivered. -/
def Obligations.MessageCompletesOnTwoDeliveries : Prop :=
  ∀ (is : List Inputs) (s : State), s.fsm = .awaitFrame → noReset is = true →
    (0 < deliveredCount Config.hardware is s ↔ [1, 1] <:+: answers is)

/-- R168: without two consecutive delivered answers, and without reset, the block stays busy, whatever the host
presents, however long; `ARQ.SEND` and `ARQ.INIT` are then still held. -/
def Obligations.LossesKeepBlockBusy : Prop :=
  ∀ (is : List Inputs) (s : State), s.fsm = .awaitFrame → noReset is = true → ¬ [1, 1] <:+: answers is →
    ∃ t : State, runInputs is s = .next t ∧ t.busy = true ∧ t.seq = s.seq ∧ t.tag = s.tag ∧
      ∀ w : CommandWord, opField w = 0x4 ∨ opField w = 0x5 → t.cmdReady w = false

/-- R106: over any run with no reset and no `CRC.INIT`, the register becomes the CRC of the sequence so far
followed by the bytes of the `CRC.BYTE` commands; `crc = CRC16([])` after reset and after `CRC.INIT`. -/
def Obligations.StreamingLaw : Prop :=
  (∀ (is : List Inputs) (s : State) (m : List Byte), noReset is = true →
    (∀ i ∈ is, i.cmdValid = true → opField i.cmd ≠ 0x1) →
    s.crc = crc16 Config.hardware.crcPoly Config.hardware.crcInit m →
    ∃ t : State, runInputs is s = .next t ∧
      t.crc = crc16 Config.hardware.crcPoly Config.hardware.crcInit (m ++ bytesPresented is)) ∧
  (∀ u : List Byte, bytesPresented (feed u) = u) ∧
  State.reset.crc = crc16 Config.hardware.crcPoly Config.hardware.crcInit [] ∧
  (∀ s t : State, exec .crcInit s = .next t →
    t.crc = crc16 Config.hardware.crcPoly Config.hardware.crcInit [])

/-- R112 on the machine: `CRC.INIT` and `CRC.BYTE` over a message and a two-byte suffix `v`, from any state,
leave `crc_zero = 1` exactly when `v` is the message's CRC, and touch nothing but `crc`. -/
def Obligations.CheckedMessageLeavesZero : Prop :=
  ∀ (m : List Byte) (v : CrcWord) (s : State),
    ∃ t : State, runInputs ((encode .crcInit).inputs :: feed (append m v)) s = .next t ∧
      (t.outputs.crcZero = true ↔ v = crc16 Config.hardware.crcPoly Config.hardware.crcInit m) ∧
      t = { s with crc := t.crc }

/-- R82: assembled, `CRC.CALC` leaves the CRC of its bytes, from any state, and `CRC.CHECK` leaves zero for its
own CRC. -/
def Obligations.AssembledCalcComputesCrc : Prop :=
  ∀ (bytes : List Nat) (s : State), bytes.all isByte = true →
    ∃ (is js : List Inputs) (t u : State),
      assemble [.crcCalc bytes] = some is ∧ runInputs is s = .next t ∧
      t.crc = crc16 Config.hardware.crcPoly Config.hardware.crcInit (bytes.map (BitVec.ofNat 8)) ∧
      assemble [.crcCheck bytes t.crc.toNat] = some js ∧ runInputs js s = .next u ∧
      u.outputs.crcZero = true

/-! ### Host programs (R239)

That the host presents the next command in every step until it is accepted, with no pause, and that no reset
falls inside a host program's run, is the model's choice of a host (log entry 13, DESIGN CHOICE). -/

/-- A host program of always-ready commands (CRC commands, `NOP`, reserved) from an idle block ends, one step
a command, whatever the channel does. -/
def Obligations.ReadyProgramEnds : Prop :=
  ∀ (cmds : List CommandWord) (as : List (Option Bit)) (s : State), s.fsm = .idle →
    (∀ w ∈ cmds, opField w ≠ 0x4 ∧ opField w ≠ 0x5) → as.length = cmds.length →
    (Session.run Config.hardware as ⟨cmds, s⟩).ended = true

/-- V6: on a channel that always delivers, a program of messages ends in three steps a message. After each
three steps one more message is delivered, in exactly one attempt, with its own handle, and the sequence bit
has flipped once more. The host pauses nowhere (log entry 13). -/
def Obligations.DeliveringChannelEndsProgram : Prop :=
  ∀ (vs : List Handle) (s : State), s.fsm = .idle →
    (∀ k : Nat, k ≤ vs.length →
      ∃ x : Session, Session.run Config.hardware (List.replicate (3 * k) (some 1))
          ⟨vs.map (commandWord 0x5), s⟩ = x ∧
        x.pending = (vs.drop k).map (commandWord 0x5) ∧ x.block.fsm = .idle ∧
        x.block.seq = s.seq + BitVec.ofNat 1 k ∧
        (0 < k → x.block.attempt = 1 ∧ x.block.result = .delivered ∧ vs[k - 1]? = some x.block.tag)) ∧
    (Session.run Config.hardware (List.replicate (3 * vs.length) (some 1))
        ⟨vs.map (commandWord 0x5), s⟩).ended = true ∧
    (Session.run Config.hardware (List.replicate (3 * vs.length) (some 1))
        ⟨vs.map (commandWord 0x5), s⟩).block.seq = s.seq + BitVec.ofNat 1 vs.length ∧
    (vs ≠ [] → (Session.run Config.hardware (List.replicate (3 * vs.length) (some 1))
        ⟨vs.map (commandWord 0x5), s⟩).block.attempt = 1)

/-- V7 and R168: on a channel that never delivers, a program that starts with a message never ends, however long
it runs, whatever the state of the block. -/
def Obligations.LosingChannelNeverEndsProgram : Prop :=
  ∀ (v : Handle) (rest : List CommandWord) (as : List (Option Bit)) (s : State),
    (∀ a ∈ as, a ≠ some 1) →
    (Session.run Config.hardware as ⟨commandWord 0x5 v :: rest, s⟩).ended = false
end

