-- ==== Sys2Proof/Laws/Decode.lean ====
section
/-! SUPPORT. The fields of a command word: what the encoder's `(op << 16) | operand` puts into each
(spec/30_encoding.md R70, R81), and which word the fields determine. -/

namespace Sys2Proof

@[simp] theorem opField_commandWord (op : BitVec 4) (v : BitVec 16) : opField (commandWord op v) = op := by
  apply BitVec.eq_of_getLsbD_eq
  intro k hk
  have h16 : 16 + k - 16 = k := by omega
  have hlt : 16 + k < 20 := by omega
  simp [opField, commandWord, hk, h16, hlt]

@[simp] theorem operandC16_commandWord (op : BitVec 4) (v : BitVec 16) :
    operandC16 (commandWord op v) = v := by
  apply BitVec.eq_of_getLsbD_eq
  intro k hk
  have hlt : k < 20 := by omega
  simp [operandC16, commandWord, hk, hlt]

@[simp] theorem operandC8_commandWord (op : BitVec 4) (d : Byte) :
    operandC8 (commandWord op (d.setWidth 16)) = d := by
  apply BitVec.eq_of_getLsbD_eq
  intro k hk
  have hlt : k < 20 := by omega
  have h16 : k < 16 := by omega
  simp [operandC8, commandWord, hk, hlt, h16]

/-- A command word is its opcode and its operand, and nothing else. -/
theorem commandWord_opField_operandC16 (w : CommandWord) : commandWord (opField w) (operandC16 w) = w := by
  apply BitVec.eq_of_getLsbD_eq
  intro k hk
  by_cases h : k < 16
  · simp [commandWord, operandC16, opField, h, hk]
  · have e : 16 + (k - 16) = k := by omega
    have h4 : k - 16 < 4 := by omega
    simp [commandWord, operandC16, opField, h, hk, e, h4]

theorem argField_eq_operandC16 (w : CommandWord) : argField w = operandC16 w := rfl

/-- The opcode mask of spec/opcode_table.json keeps exactly the opcode. -/
theorem commandWord_and_mask (op : BitVec 4) (v : BitVec 16) :
    (commandWord op v).toNat &&& 0xF0000 = op.toNat * 2 ^ 16 := by
  have h : commandWord op v &&& 0xF0000#20 = op.setWidth 20 <<< 16 := by
    apply BitVec.eq_of_getLsbD_eq
    intro k hk
    have hm : (0xF0000#20).getLsbD k = decide (16 ≤ k) := by
      revert k; decide
    by_cases h16 : k < 16
    · have : ¬ 16 ≤ k := by omega
      simp [commandWord, hm, h16, this]
    · have : 16 ≤ k := by omega
      simp [commandWord, hm, h16, this, hk]
  have h2 := congrArg BitVec.toNat h
  have hop : op.toNat < 16 := op.isLt
  simp only [BitVec.toNat_and, BitVec.toNat_shiftLeft, BitVec.toNat_setWidth, Nat.shiftLeft_eq] at h2
  rw [show (0xF0000#20).toNat = 0xF0000 from rfl] at h2
  rw [h2, Nat.mod_eq_of_lt (a := op.toNat) (by omega), Nat.mod_eq_of_lt (by omega)]

@[simp] theorem decodeResponse_one : decodeResponse 1#1 = .rspDelivered := rfl

@[simp] theorem decodeResponse_zero : decodeResponse 0#1 = .rspLost := rfl

/-- A one-bit answer is delivered or lost, and nothing else. -/
theorem decodeResponse_cases (d : Bit) :
    (d = 1 ∧ decodeResponse d = .rspDelivered) ∨ (d = 0 ∧ decodeResponse d = .rspLost) := by
  revert d; decide

/-- What a command word can decode to, by the number of its opcode. -/
theorem decodeCommand_cases (w : CommandWord) :
    (opField w = 0x0 ∧ decodeCommand w = .nop) ∨ (opField w = 0x1 ∧ decodeCommand w = .crcInit) ∨
    (opField w = 0x2 ∧ decodeCommand w = .crcByte (operandC8 w)) ∨
    (opField w = 0x3 ∧ decodeCommand w = .crcAppend (operandC16 w)) ∨
    (opField w = 0x4 ∧ decodeCommand w = .arqInit) ∨
    (opField w = 0x5 ∧ decodeCommand w = .arqSend (operandC16 w)) ∨
    (opField w = 0x6 ∧ decodeCommand w = .rsvd6) ∨ (opField w = 0x7 ∧ decodeCommand w = .rsvd7) ∨
    (opField w = 0x8 ∧ decodeCommand w = .rsvd8) ∨ (opField w = 0x9 ∧ decodeCommand w = .rsvd9) ∨
    (opField w = 0xA ∧ decodeCommand w = .rsvdA) ∨ (opField w = 0xB ∧ decodeCommand w = .rsvdB) ∨
    (opField w = 0xC ∧ decodeCommand w = .rsvdC) ∨ (opField w = 0xD ∧ decodeCommand w = .rsvdD) ∨
    (opField w = 0xE ∧ decodeCommand w = .rsvdE) ∨ (opField w = 0xF ∧ decodeCommand w = .rsvdF) := by
  have all : ∀ op : BitVec 4, op = 0x0 ∨ op = 0x1 ∨ op = 0x2 ∨ op = 0x3 ∨ op = 0x4 ∨ op = 0x5 ∨ op = 0x6 ∨
      op = 0x7 ∨ op = 0x8 ∨ op = 0x9 ∨ op = 0xA ∨ op = 0xB ∨ op = 0xC ∨ op = 0xD ∨ op = 0xE ∨ op = 0xF := by
    decide
  rcases all (opField w) with h | h | h | h | h | h | h | h | h | h | h | h | h | h | h | h <;>
    simp [decodeCommand, h]

end Sys2Proof
end

