-- ==== Sys2Proof/Laws/State.lean ====
section
/-! SUPPORT. What each named update leaves in each field of the state, one lemma per field per update, so that no
later proof unfolds a record update. -/

namespace Sys2Proof.Machine

@[simp] theorem loadCrc_crc (c : CrcWord) (s : State) : (loadCrc c s).crc = c := rfl
@[simp] theorem loadCrc_app (c : CrcWord) (s : State) : (loadCrc c s).app = s.app := rfl
@[simp] theorem loadCrc_seq (c : CrcWord) (s : State) : (loadCrc c s).seq = s.seq := rfl
@[simp] theorem loadCrc_attempt (c : CrcWord) (s : State) : (loadCrc c s).attempt = s.attempt := rfl
@[simp] theorem loadCrc_fsm (c : CrcWord) (s : State) : (loadCrc c s).fsm = s.fsm := rfl
@[simp] theorem loadCrc_tag (c : CrcWord) (s : State) : (loadCrc c s).tag = s.tag := rfl
@[simp] theorem loadCrc_result (c : CrcWord) (s : State) : (loadCrc c s).result = s.result := rfl
@[simp] theorem loadCrc_errIllegal (c : CrcWord) (s : State) : (loadCrc c s).errIllegal = s.errIllegal := rfl
@[simp] theorem loadCrc_inputs (c : CrcWord) (s : State) : (loadCrc c s).inputs = s.inputs := rfl
@[simp] theorem loadCrc_draws (c : CrcWord) (s : State) : (loadCrc c s).draws = s.draws := rfl

@[simp] theorem loadSuffix_crc (v : CrcWord) (s : State) : (loadSuffix v s).crc = s.crc := rfl
@[simp] theorem loadSuffix_app (v : CrcWord) (s : State) : (loadSuffix v s).app = v := rfl
@[simp] theorem loadSuffix_seq (v : CrcWord) (s : State) : (loadSuffix v s).seq = s.seq := rfl
@[simp] theorem loadSuffix_attempt (v : CrcWord) (s : State) : (loadSuffix v s).attempt = s.attempt := rfl
@[simp] theorem loadSuffix_fsm (v : CrcWord) (s : State) : (loadSuffix v s).fsm = s.fsm := rfl
@[simp] theorem loadSuffix_tag (v : CrcWord) (s : State) : (loadSuffix v s).tag = s.tag := rfl
@[simp] theorem loadSuffix_result (v : CrcWord) (s : State) : (loadSuffix v s).result = s.result := rfl
@[simp] theorem loadSuffix_errIllegal (v : CrcWord) (s : State) : (loadSuffix v s).errIllegal = s.errIllegal := rfl
@[simp] theorem loadSuffix_inputs (v : CrcWord) (s : State) : (loadSuffix v s).inputs = s.inputs := rfl
@[simp] theorem loadSuffix_draws (v : CrcWord) (s : State) : (loadSuffix v s).draws = s.draws := rfl

@[simp] theorem freshProtocol_crc (s : State) : (freshProtocol s).crc = s.crc := rfl
@[simp] theorem freshProtocol_app (s : State) : (freshProtocol s).app = s.app := rfl
@[simp] theorem freshProtocol_seq (s : State) : (freshProtocol s).seq = 0 := rfl
@[simp] theorem freshProtocol_attempt (s : State) : (freshProtocol s).attempt = 0 := rfl
@[simp] theorem freshProtocol_fsm (s : State) : (freshProtocol s).fsm = s.fsm := rfl
@[simp] theorem freshProtocol_tag (s : State) : (freshProtocol s).tag = 0x0000 := rfl
@[simp] theorem freshProtocol_result (s : State) : (freshProtocol s).result = .none := rfl
@[simp] theorem freshProtocol_errIllegal (s : State) : (freshProtocol s).errIllegal = s.errIllegal := rfl
@[simp] theorem freshProtocol_inputs (s : State) : (freshProtocol s).inputs = s.inputs := rfl
@[simp] theorem freshProtocol_draws (s : State) : (freshProtocol s).draws = s.draws := rfl

@[simp] theorem beginMessage_crc (v : Handle) (s : State) : (beginMessage v s).crc = s.crc := rfl
@[simp] theorem beginMessage_app (v : Handle) (s : State) : (beginMessage v s).app = s.app := rfl
@[simp] theorem beginMessage_seq (v : Handle) (s : State) : (beginMessage v s).seq = s.seq := rfl
@[simp] theorem beginMessage_attempt (v : Handle) (s : State) : (beginMessage v s).attempt = 1 := rfl
@[simp] theorem beginMessage_fsm (v : Handle) (s : State) : (beginMessage v s).fsm = .awaitFrame := rfl
@[simp] theorem beginMessage_tag (v : Handle) (s : State) : (beginMessage v s).tag = v := rfl
@[simp] theorem beginMessage_result (v : Handle) (s : State) : (beginMessage v s).result = .none := rfl
@[simp] theorem beginMessage_errIllegal (v : Handle) (s : State) : (beginMessage v s).errIllegal = s.errIllegal := rfl
@[simp] theorem beginMessage_inputs (v : Handle) (s : State) : (beginMessage v s).inputs = s.inputs := rfl
@[simp] theorem beginMessage_draws (v : Handle) (s : State) : (beginMessage v s).draws = s.draws := rfl

@[simp] theorem frameDelivered_crc (s : State) : (frameDelivered s).crc = s.crc := rfl
@[simp] theorem frameDelivered_app (s : State) : (frameDelivered s).app = s.app := rfl
@[simp] theorem frameDelivered_seq (s : State) : (frameDelivered s).seq = s.seq := rfl
@[simp] theorem frameDelivered_attempt (s : State) : (frameDelivered s).attempt = s.attempt := rfl
@[simp] theorem frameDelivered_fsm (s : State) : (frameDelivered s).fsm = .awaitAck := rfl
@[simp] theorem frameDelivered_tag (s : State) : (frameDelivered s).tag = s.tag := rfl
@[simp] theorem frameDelivered_result (s : State) : (frameDelivered s).result = s.result := rfl
@[simp] theorem frameDelivered_errIllegal (s : State) : (frameDelivered s).errIllegal = s.errIllegal := rfl
@[simp] theorem frameDelivered_inputs (s : State) : (frameDelivered s).inputs = s.inputs := rfl
@[simp] theorem frameDelivered_draws (s : State) : (frameDelivered s).draws = s.draws := rfl

@[simp] theorem ackDelivered_crc (s : State) : (ackDelivered s).crc = s.crc := rfl
@[simp] theorem ackDelivered_app (s : State) : (ackDelivered s).app = s.app := rfl
@[simp] theorem ackDelivered_seq (s : State) : (ackDelivered s).seq = s.seq ^^^ 1 := rfl
@[simp] theorem ackDelivered_attempt (s : State) : (ackDelivered s).attempt = s.attempt := rfl
@[simp] theorem ackDelivered_fsm (s : State) : (ackDelivered s).fsm = .idle := rfl
@[simp] theorem ackDelivered_tag (s : State) : (ackDelivered s).tag = s.tag := rfl
@[simp] theorem ackDelivered_result (s : State) : (ackDelivered s).result = .delivered := rfl
@[simp] theorem ackDelivered_errIllegal (s : State) : (ackDelivered s).errIllegal = s.errIllegal := rfl
@[simp] theorem ackDelivered_inputs (s : State) : (ackDelivered s).inputs = s.inputs := rfl
@[simp] theorem ackDelivered_draws (s : State) : (ackDelivered s).draws = s.draws := rfl

@[simp] theorem nextAttempt_crc (p : Config.Params) (s : State) : (nextAttempt p s).crc = s.crc := rfl
@[simp] theorem nextAttempt_app (p : Config.Params) (s : State) : (nextAttempt p s).app = s.app := rfl
@[simp] theorem nextAttempt_seq (p : Config.Params) (s : State) : (nextAttempt p s).seq = s.seq := rfl
@[simp] theorem nextAttempt_attempt (p : Config.Params) (s : State) : (nextAttempt p s).attempt = satIncr p.attemptW s.attempt := rfl
@[simp] theorem nextAttempt_fsm (p : Config.Params) (s : State) : (nextAttempt p s).fsm = .awaitFrame := rfl
@[simp] theorem nextAttempt_tag (p : Config.Params) (s : State) : (nextAttempt p s).tag = s.tag := rfl
@[simp] theorem nextAttempt_result (p : Config.Params) (s : State) : (nextAttempt p s).result = s.result := rfl
@[simp] theorem nextAttempt_errIllegal (p : Config.Params) (s : State) : (nextAttempt p s).errIllegal = s.errIllegal := rfl
@[simp] theorem nextAttempt_inputs (p : Config.Params) (s : State) : (nextAttempt p s).inputs = s.inputs := rfl
@[simp] theorem nextAttempt_draws (p : Config.Params) (s : State) : (nextAttempt p s).draws = s.draws := rfl

@[simp] theorem abandon_crc (s : State) : (abandon s).crc = s.crc := rfl
@[simp] theorem abandon_app (s : State) : (abandon s).app = s.app := rfl
@[simp] theorem abandon_seq (s : State) : (abandon s).seq = s.seq := rfl
@[simp] theorem abandon_attempt (s : State) : (abandon s).attempt = s.attempt := rfl
@[simp] theorem abandon_fsm (s : State) : (abandon s).fsm = .idle := rfl
@[simp] theorem abandon_tag (s : State) : (abandon s).tag = s.tag := rfl
@[simp] theorem abandon_result (s : State) : (abandon s).result = .gaveUp := rfl
@[simp] theorem abandon_errIllegal (s : State) : (abandon s).errIllegal = s.errIllegal := rfl
@[simp] theorem abandon_inputs (s : State) : (abandon s).inputs = s.inputs := rfl
@[simp] theorem abandon_draws (s : State) : (abandon s).draws = s.draws := rfl

@[simp] theorem markIllegal_crc (s : State) : (markIllegal s).crc = s.crc := rfl
@[simp] theorem markIllegal_app (s : State) : (markIllegal s).app = s.app := rfl
@[simp] theorem markIllegal_seq (s : State) : (markIllegal s).seq = s.seq := rfl
@[simp] theorem markIllegal_attempt (s : State) : (markIllegal s).attempt = s.attempt := rfl
@[simp] theorem markIllegal_fsm (s : State) : (markIllegal s).fsm = s.fsm := rfl
@[simp] theorem markIllegal_tag (s : State) : (markIllegal s).tag = s.tag := rfl
@[simp] theorem markIllegal_result (s : State) : (markIllegal s).result = s.result := rfl
@[simp] theorem markIllegal_errIllegal (s : State) : (markIllegal s).errIllegal = true := rfl
@[simp] theorem markIllegal_inputs (s : State) : (markIllegal s).inputs = s.inputs := rfl
@[simp] theorem markIllegal_draws (s : State) : (markIllegal s).draws = s.draws := rfl

@[simp] theorem resetBlock_crc (p : Config.Params) (s : State) : (resetBlock p s).crc = p.crcInit := rfl
@[simp] theorem resetBlock_app (p : Config.Params) (s : State) : (resetBlock p s).app = 0x0000 := rfl
@[simp] theorem resetBlock_seq (p : Config.Params) (s : State) : (resetBlock p s).seq = 0 := rfl
@[simp] theorem resetBlock_attempt (p : Config.Params) (s : State) : (resetBlock p s).attempt = 0 := rfl
@[simp] theorem resetBlock_fsm (p : Config.Params) (s : State) : (resetBlock p s).fsm = .idle := rfl
@[simp] theorem resetBlock_tag (p : Config.Params) (s : State) : (resetBlock p s).tag = 0x0000 := rfl
@[simp] theorem resetBlock_result (p : Config.Params) (s : State) : (resetBlock p s).result = .none := rfl
@[simp] theorem resetBlock_errIllegal (p : Config.Params) (s : State) : (resetBlock p s).errIllegal = false := rfl
@[simp] theorem resetBlock_inputs (p : Config.Params) (s : State) : (resetBlock p s).inputs = s.inputs := rfl
@[simp] theorem resetBlock_draws (p : Config.Params) (s : State) : (resetBlock p s).draws = s.draws := rfl

@[simp] theorem State.present_crc (is : List Inputs) (s : State) : (s.present is).crc = s.crc := rfl
@[simp] theorem State.present_app (is : List Inputs) (s : State) : (s.present is).app = s.app := rfl
@[simp] theorem State.present_seq (is : List Inputs) (s : State) : (s.present is).seq = s.seq := rfl
@[simp] theorem State.present_attempt (is : List Inputs) (s : State) : (s.present is).attempt = s.attempt := rfl
@[simp] theorem State.present_fsm (is : List Inputs) (s : State) : (s.present is).fsm = s.fsm := rfl
@[simp] theorem State.present_tag (is : List Inputs) (s : State) : (s.present is).tag = s.tag := rfl
@[simp] theorem State.present_result (is : List Inputs) (s : State) : (s.present is).result = s.result := rfl
@[simp] theorem State.present_errIllegal (is : List Inputs) (s : State) : (s.present is).errIllegal = s.errIllegal := rfl
@[simp] theorem State.present_inputs (is : List Inputs) (s : State) : (s.present is).inputs = is ++ s.inputs := rfl
@[simp] theorem State.present_draws (is : List Inputs) (s : State) : (s.present is).draws = s.draws := rfl

end Sys2Proof.Machine
end

