-- ==== Sys2Proof/Laws/Ops.lean ====
section
/-! SUPPORT. For each shared operation, once, everything it can do. -/

namespace Sys2Proof.Machine

@[simp] theorem andThen_next (s : State) (f : State → Outcome) : andThen (.next s) f = f s := rfl

/-- If a sequence answers a next state, so did its first part. -/
theorem andThen_eq_next {o : Outcome} {f : State → Outcome} {t : State} (h : andThen o f = .next t) :
    ∃ s, o = .next s ∧ f s = .next t := by
  cases o with
  | next s => exact ⟨s, rfl, h⟩
  | fault r => cases r
  | refused r => cases h

theorem busy_eq_false_iff (s : State) : s.busy = false ↔ s.fsm = .idle := by
  cases h : s.fsm <;> simp [State.busy, h]

theorem busy_eq_true_iff (s : State) : s.busy = true ↔ s.fsm ≠ .idle := by
  cases h : s.fsm <;> simp [State.busy, h]

/-- A held command does nothing while busy, and its effect when idle. -/
theorem holdWhileBusy_cases (f : State → State) (s : State) :
    (s.fsm = .idle ∧ holdWhileBusy f s = f s) ∨ (s.fsm ≠ .idle ∧ holdWhileBusy f s = s) := by
  cases h : s.fsm <;> simp [holdWhileBusy, State.busy, h]

/-- With no ceiling a retry is the next attempt (spec/42_arq.md R158). -/
theorem retry_of_no_ceiling (p : Config.Params) (h : p.maxAttempts = 0) (s : State) :
    retry p s = nextAttempt p s := by
  simp [retry, atCeiling, h]

@[simp] theorem retry_hardware (s : State) :
    retry Config.hardware s = nextAttempt Config.hardware s :=
  retry_of_no_ceiling _ rfl s

/-- A retry abandons the message exactly at the ceiling (R172). -/
theorem retry_cases (p : Config.Params) (s : State) :
    (p.maxAttempts ≠ 0 ∧ p.maxAttempts ≤ s.attempt.toNat ∧ retry p s = abandon s) ∨
    ((p.maxAttempts = 0 ∨ s.attempt.toNat < p.maxAttempts) ∧ retry p s = nextAttempt p s) := by
  by_cases h0 : p.maxAttempts = 0
  · exact .inr ⟨.inl h0, retry_of_no_ceiling p h0 s⟩
  · by_cases h1 : p.maxAttempts ≤ s.attempt.toNat
    · exact .inl ⟨h0, h1, by simp [retry, atCeiling, h0, h1]⟩
    · exact .inr ⟨.inr (by omega), by simp [retry, atCeiling, h0, h1]⟩

/-- The saturating increment as a number (R162), for a width that the register can hold. -/
theorem satIncr_toNat (w : Nat) (hw : w ≤ 32) (x : AttemptCount) :
    (satIncr w x).toNat = min (x.toNat + 1) (2 ^ w - 1) := by
  have h : 2 ^ w ≤ 2 ^ 32 := Nat.pow_le_pow_right (by omega) hw
  have h1 : 1 ≤ 2 ^ w := Nat.one_le_two_pow
  simp only [satIncr, BitVec.toNat_ofNat]
  exact Nat.mod_eq_of_lt (by omega)

/-- The transition a delivered answer selects, by the state (spec/41_channel.md R137). -/
theorem respondDelivered_cases (s : State) :
    (s.fsm = .idle ∧ respondDelivered s = s) ∨ (s.fsm = .awaitFrame ∧ respondDelivered s = frameDelivered s) ∨
    (s.fsm = .awaitAck ∧ respondDelivered s = ackDelivered s) := by
  cases h : s.fsm <;> simp [respondDelivered, h]

/-- The transition a lost answer selects, by the state (R138). -/
theorem respondLost_cases (p : Config.Params) (s : State) :
    (s.fsm = .idle ∧ respondLost p s = s) ∨ (s.fsm ≠ .idle ∧ respondLost p s = retry p s) := by
  cases h : s.fsm <;> simp [respondLost, h]

end Sys2Proof.Machine
end

