-- ==== Sys2Proof/Laws/BlockStep.lean ====
section
/-! SUPPORT. What the one-step function of spec/70_reset_and_hazards.md R236 can do, part by part, and how runs
and traces are put together. -/

namespace Sys2Proof.Machine

/-- Part (a) of R236: nothing, the frame's delivery, the message's end, or a retry. -/
theorem blockResponse_cases (p : Config.Params) (s : State) (i : Inputs) :
    ((i.rspValid = false ∨ s.fsm = .idle) ∧ blockResponse p s i = s) ∨
    (i.rspValid = true ∧ i.rspDelivered = 1 ∧ s.fsm = .awaitFrame ∧
      blockResponse p s i = frameDelivered s) ∨
    (i.rspValid = true ∧ i.rspDelivered = 1 ∧ s.fsm = .awaitAck ∧ blockResponse p s i = ackDelivered s) ∨
    (i.rspValid = true ∧ i.rspDelivered = 0 ∧ s.fsm ≠ .idle ∧ blockResponse p s i = retry p s) := by
  rcases decodeResponse_cases i.rspDelivered with ⟨h, -⟩ | ⟨h, -⟩ <;>
    cases hv : i.rspValid <;> cases hf : s.fsm <;>
    simp [blockResponse, hv, hf, h, frameDelivered, ackDelivered]

/-- A step of R236 is the reset, or part (a) and, for an accepted command, part (b). -/
theorem blockStep_cases (p : Config.Params) (s : State) (i : Inputs) :
    (i.rst = true ∧ blockStep p s i = resetBlock p s) ∨
    (i.rst = false ∧ blockStep p s i =
      if s.accepts i then blockCommand p s i.cmd (blockResponse p s i) else blockResponse p s i) := by
  cases hr : i.rst
  · refine .inr ⟨rfl, ?_⟩
    unfold blockStep State.accepts State.cmdReady
    simp only [hr, Bool.false_eq_true, if_false]
    congr 1
    cases hf : s.fsm <;> simp [State.busy, hf]
  · exact .inl ⟨rfl, by simp [blockStep, hr]⟩

/-- While busy no ARQ command is accepted (spec/42_arq.md R163). -/
theorem opField_of_accepts_busy {s : State} {i : Inputs} (hb : s.busy = true) (ha : s.accepts i = true) :
    opField i.cmd ≠ 4#4 ∧ opField i.cmd ≠ 5#4 := by
  simp only [State.accepts, State.cmdReady, hb, Bool.true_and, Bool.and_eq_true, Bool.not_eq_true',
    Bool.or_eq_false_iff, beq_eq_false_iff_ne] at ha
  exact ha.2

@[simp] theorem blockRun_nil (p : Config.Params) (s : State) : blockRun p [] s = s := rfl

@[simp] theorem blockRun_cons (p : Config.Params) (i : Inputs) (is : List Inputs) (s : State) :
    blockRun p (i :: is) s = blockRun p is (blockStep p s i) := rfl

theorem blockRun_append (p : Config.Params) (is js : List Inputs) (s : State) :
    blockRun p (is ++ js) s = blockRun p js (blockRun p is s) := by
  induction is generalizing s with
  | nil => rfl
  | cons i is ih => simp [ih]

@[simp] theorem trace_nil (p : Config.Params) (s : State) : trace p [] s = [] := rfl

@[simp] theorem trace_cons (p : Config.Params) (i : Inputs) (is : List Inputs) (s : State) :
    trace p (i :: is) s = stepEvents p s i ++ trace p is (blockStep p s i) := rfl

theorem trace_append (p : Config.Params) (is js : List Inputs) (s : State) :
    trace p (is ++ js) s = trace p is s ++ trace p js (blockRun p is s) := by
  induction is generalizing s with
  | nil => rfl
  | cons i is ih => simp [ih]

theorem session_run_cons (p : Config.Params) (a : Option Bit) (as : List (Option Bit)) (x : Session) :
    Session.run p (a :: as) x = Session.run p as (x.step p a) := rfl

end Sys2Proof.Machine
end

