-- ==== Sys2Proof/Laws/Config.lean ====
section
/-! SUPPORT. The types of Word.lean have the widths of the parameters table (spec/00_scope.md R9), and this
hardware's parameters are ones the spec describes. -/

namespace Sys2Proof

theorem crcWord_lt (c : CrcWord) : c.toNat < 2 ^ Config.hardware.crcW := c.isLt
theorem byte_lt (d : Byte) : d.toNat < 2 ^ Config.hardware.byteW := d.isLt
theorem bit_lt (b : Bit) : b.toNat < 2 ^ Config.hardware.seqW := b.isLt
theorem handle_lt (v : Handle) : v.toNat < 2 ^ Config.hardware.tagW := v.isLt
theorem attemptCount_lt (n : AttemptCount) : n.toNat < 2 ^ Config.hardware.attemptW := n.isLt
theorem commandWord_lt (w : CommandWord) : w.toNat < 2 ^ Config.hardware.cmdW := w.isLt

theorem hardware_wellFormed : Config.hardware.wellFormed = true := by decide

/-- Well-formed parameters have a counter width that the register holds, and a ceiling within it. -/
theorem counter_of_wellFormed {p : Config.Params} (h : p.wellFormed = true) :
    1 ≤ p.attemptW ∧ p.attemptW ≤ 32 ∧ p.maxAttempts ≤ 2 ^ p.attemptW - 1 := by
  simp only [Config.Params.wellFormed, Config.Params.counterPart, Bool.and_eq_true, decide_eq_true_eq] at h
  omega

end Sys2Proof
end

