-- ==== Sys2Proof/Laws/Crc.lean ====
section
/-! SUPPORT. The recursion equations of the CRC arithmetic, and how it runs over a sequence in parts. -/

namespace Sys2Proof.Machine

@[simp] theorem bitSteps_zero (poly c : CrcWord) : bitSteps poly 0 c = c := rfl

theorem bitSteps_succ (poly : CrcWord) (n : Nat) (c : CrcWord) :
    bitSteps poly (n + 1) c = bitSteps poly n (bitStep poly c) := rfl

theorem bitSteps_add (poly : CrcWord) (m n : Nat) (c : CrcWord) :
    bitSteps poly (m + n) c = bitSteps poly n (bitSteps poly m c) := by
  induction m generalizing c with
  | zero => simp
  | succ m ih => rw [Nat.succ_add, bitSteps_succ, ih, bitSteps_succ]

@[simp] theorem byteSteps_nil (poly c : CrcWord) : byteSteps poly c [] = c := rfl

@[simp] theorem byteSteps_cons (poly c : CrcWord) (d : Byte) (ds : List Byte) :
    byteSteps poly c (d :: ds) = byteSteps poly (byteStep poly c d) ds := rfl

/-- A sequence in two parts is fed part by part. -/
theorem byteSteps_append (poly c : CrcWord) (x y : List Byte) :
    byteSteps poly c (x ++ y) = byteSteps poly (byteSteps poly c x) y := by
  induction x generalizing c with
  | nil => rfl
  | cons d ds ih => simp [ih]

/-- The empty sequence has the initial value as its CRC (spec/40_crc.md R103). -/
theorem crc16_nil (poly init : CrcWord) : crc16 poly init [] = init := rfl

/-- A bit step as one XOR, with the test of bit 15 made before the shift. -/
theorem bitStep_eq_xor (poly c : CrcWord) :
    bitStep poly c = (c <<< 1) ^^^ (if c.getLsbD 15 then poly else 0) := by
  unfold bitStep; split <;> simp

end Sys2Proof.Machine
end

