-- ==== Sys2Proof/Laws/PerInstr.lean ====
section
/-! SUPPORT. Statements about every instruction, one lemma per constructor (LAWS.json). -/

namespace Sys2Proof.Laws

/-- The word the encoder gives an instruction has the match of its row of spec/opcode_table.json under the row's
mask (spec/30_encoding.md R71, R73). -/
def EncodesInItsRow.Statement (i : Instr) : Prop :=
  (encode i).toNat &&& (tableRow i).2 = (tableRow i).1

theorem EncodesInItsRow.nop : EncodesInItsRow.Statement .nop :=
  by unfold EncodesInItsRow.Statement; decide

theorem EncodesInItsRow.crcInit : EncodesInItsRow.Statement .crcInit :=
  by unfold EncodesInItsRow.Statement; decide

theorem EncodesInItsRow.crcByte (d : Byte) : EncodesInItsRow.Statement (.crcByte d) :=
  commandWord_and_mask _ _

theorem EncodesInItsRow.crcAppend (v : CrcWord) : EncodesInItsRow.Statement (.crcAppend v) :=
  commandWord_and_mask _ _

theorem EncodesInItsRow.arqInit : EncodesInItsRow.Statement .arqInit :=
  by unfold EncodesInItsRow.Statement; decide

theorem EncodesInItsRow.arqSend (v : Handle) : EncodesInItsRow.Statement (.arqSend v) :=
  commandWord_and_mask _ _

theorem EncodesInItsRow.rsvd6 : EncodesInItsRow.Statement .rsvd6 :=
  by unfold EncodesInItsRow.Statement; decide

theorem EncodesInItsRow.rsvd7 : EncodesInItsRow.Statement .rsvd7 :=
  by unfold EncodesInItsRow.Statement; decide

theorem EncodesInItsRow.rsvd8 : EncodesInItsRow.Statement .rsvd8 :=
  by unfold EncodesInItsRow.Statement; decide

theorem EncodesInItsRow.rsvd9 : EncodesInItsRow.Statement .rsvd9 :=
  by unfold EncodesInItsRow.Statement; decide

theorem EncodesInItsRow.rsvdA : EncodesInItsRow.Statement .rsvdA :=
  by unfold EncodesInItsRow.Statement; decide

theorem EncodesInItsRow.rsvdB : EncodesInItsRow.Statement .rsvdB :=
  by unfold EncodesInItsRow.Statement; decide

theorem EncodesInItsRow.rsvdC : EncodesInItsRow.Statement .rsvdC :=
  by unfold EncodesInItsRow.Statement; decide

theorem EncodesInItsRow.rsvdD : EncodesInItsRow.Statement .rsvdD :=
  by unfold EncodesInItsRow.Statement; decide

theorem EncodesInItsRow.rsvdE : EncodesInItsRow.Statement .rsvdE :=
  by unfold EncodesInItsRow.Statement; decide

theorem EncodesInItsRow.rsvdF : EncodesInItsRow.Statement .rsvdF :=
  by unfold EncodesInItsRow.Statement; decide

theorem EncodesInItsRow.rspDelivered : EncodesInItsRow.Statement .rspDelivered :=
  by unfold EncodesInItsRow.Statement; decide

theorem EncodesInItsRow.rspLost : EncodesInItsRow.Statement .rspLost :=
  by unfold EncodesInItsRow.Statement; decide

end Sys2Proof.Laws
end

