-- ==== Sys2Proof/Laws/Step.lean ====
section
/-! SUPPORT. What `exec`, a cycle and a step can answer: always a next state, with the coming inputs left
alone; and where the inputs of a step come from. -/

namespace Sys2Proof.Machine

@[simp] theorem exec_nop (s : State) : exec .nop s = .next s := rfl
@[simp] theorem exec_crcInit (s : State) : exec .crcInit s = .next (loadCrc Config.hardware.crcInit s) := rfl
@[simp] theorem exec_crcByte (d : Byte) (s : State) :
    exec (.crcByte d) s = .next (foldByte Config.hardware d s) := rfl
@[simp] theorem exec_crcAppend (v : CrcWord) (s : State) : exec (.crcAppend v) s = .next (loadSuffix v s) := rfl
@[simp] theorem exec_arqInit (s : State) : exec .arqInit s = .next (holdWhileBusy freshProtocol s) := rfl
@[simp] theorem exec_arqSend (v : Handle) (s : State) :
    exec (.arqSend v) s = .next (holdWhileBusy (beginMessage v) s) := rfl
@[simp] theorem exec_rsvd6 (s : State) : exec .rsvd6 s = .next (markIllegal s) := rfl
@[simp] theorem exec_rsvd7 (s : State) : exec .rsvd7 s = .next (markIllegal s) := rfl
@[simp] theorem exec_rsvd8 (s : State) : exec .rsvd8 s = .next (markIllegal s) := rfl
@[simp] theorem exec_rsvd9 (s : State) : exec .rsvd9 s = .next (markIllegal s) := rfl
@[simp] theorem exec_rsvdA (s : State) : exec .rsvdA s = .next (markIllegal s) := rfl
@[simp] theorem exec_rsvdB (s : State) : exec .rsvdB s = .next (markIllegal s) := rfl
@[simp] theorem exec_rsvdC (s : State) : exec .rsvdC s = .next (markIllegal s) := rfl
@[simp] theorem exec_rsvdD (s : State) : exec .rsvdD s = .next (markIllegal s) := rfl
@[simp] theorem exec_rsvdE (s : State) : exec .rsvdE s = .next (markIllegal s) := rfl
@[simp] theorem exec_rsvdF (s : State) : exec .rsvdF s = .next (markIllegal s) := rfl
@[simp] theorem exec_rspDelivered (s : State) : exec .rspDelivered s = .next (respondDelivered s) := rfl
@[simp] theorem exec_rspLost (s : State) : exec .rspLost s = .next (respondLost Config.hardware s) := rfl

/-- No instruction faults or is refused (spec/60_exceptions.md R204). -/
theorem exec_answers_next (i : Instr) (s : State) : ∃ t, exec i s = .next t := by
  cases i <;> exact ⟨_, rfl⟩

theorem resetBlock_inputs_draws (p : Config.Params) (s : State) :
    (resetBlock p s).inputs = s.inputs ∧ (resetBlock p s).draws = s.draws := ⟨rfl, rfl⟩

/-- A cycle is the reset, or the answer and then the command. -/
theorem cycle_cases (i : Inputs) (s : State) :
    (i.rst = true ∧ cycle i s = .next (resetBlock Config.hardware s)) ∨
    (i.rst = false ∧ cycle i s = andThen (runResponse i s) (runCommand (s.cmdReady i.cmd) i)) := by
  cases h : i.rst <;> simp [cycle, h]

theorem runResponse_answers_next (i : Inputs) (s : State) : ∃ t, runResponse i s = .next t := by
  unfold runResponse; split
  · exact exec_answers_next _ _
  · exact ⟨s, rfl⟩

theorem runCommand_answers_next (ready : Bool) (i : Inputs) (s : State) :
    ∃ t, runCommand ready i s = .next t := by
  unfold runCommand; split
  · exact exec_answers_next _ _
  · exact ⟨s, rfl⟩

theorem cycle_answers_next (i : Inputs) (s : State) : ∃ t, cycle i s = .next t := by
  rcases cycle_cases i s with ⟨-, h⟩ | ⟨-, h⟩
  · exact ⟨_, h⟩
  · obtain ⟨u, hu⟩ := runResponse_answers_next i s
    obtain ⟨t, ht⟩ := runCommand_answers_next (s.cmdReady i.cmd) i u
    exact ⟨t, by rw [h, hu, andThen_next, ht]⟩

theorem step_answers_next (s : State) : ∃ t, step s = .next t := cycle_answers_next _ _

/-- A command that is not ready has no effect on the state when it is presented alone (spec/42_arq.md R163). -/
theorem exec_of_not_ready {s : State} {w : CommandWord} (h : s.cmdReady w = false) :
    exec (decodeCommand w) s = .next s := by
  have hb : s.busy = true := by
    cases hb : s.busy
    · simp [State.cmdReady, hb] at h
    · rfl
  have ho : opField w = 4#4 ∨ opField w = 5#4 := by
    by_cases h4 : opField w = 4#4
    · exact .inl h4
    · exact .inr (by simpa [State.cmdReady, hb, h4] using h)
  rcases ho with ho | ho <;>
    simp [decodeCommand, ho, exec, execArqInit, execArqSend, holdWhileBusy, hb]

@[simp] theorem nextInputs_present_cons (i : Inputs) (is : List Inputs) (s : State) :
    (s.present (i :: is)).nextInputs = i := rfl

@[simp] theorem takeInputs_present_cons (i : Inputs) (is : List Inputs) (s : State) :
    (s.present (i :: is)).takeInputs = s.present is := rfl

@[simp] theorem present_nil (s : State) : s.present [] = s := rfl

theorem step_present_cons (i : Inputs) (is : List Inputs) (s : State) :
    step (s.present (i :: is)) = cycle i (s.present is) := rfl

/-- Using up a sample changes the model's own fields only. -/
theorem takeInputs_fields (s : State) :
    s.takeInputs = { s with inputs := s.takeInputs.inputs, draws := s.takeInputs.draws } := by
  unfold State.takeInputs; split <;> rfl

end Sys2Proof.Machine
end

