-- ==== Sys2Proof/Tests/Slice0.lean ====
section
/-! SUPPORT. Tests. Expected results are the spec's: the worked vectors of spec/95_test_vectors.md (named in each
comment), the word table of spec/30_encoding.md R81 and the encodings of R70 to R75; the witnesses show states
and operands that meet the hypotheses of the statements. -/

namespace Sys2Proof.Tests

open Sys2Proof Sys2Proof.Machine

/-- The state a step answers, if any. -/
def nextState (o : Outcome) : Option State :=
  match o with
  | .next s => some s
  | .fault _ => none
  | .refused _ => none

/-- A state of the ARQ unit, written as spec/95_test_vectors.md section 3.1 writes it, the rest as after reset. -/
def arq (seq : Bit) (attempt : AttemptCount) (fsm : Fsm) (tag : Handle) (result : MessageResult) : State :=
  { State.reset with seq := seq, attempt := attempt, fsm := fsm, tag := tag, result := result }

/-! ### Decoding: every constructor, by a word written out from the spec's encoding (op, then operand bits) -/

theorem test_decode_nop : decode (.command 0b00000000000000000000) = .nop := by decide
theorem test_decode_crcInit : decode (.command 0b00010000000000000000) = .crcInit := by decide
theorem test_decode_crcByte : decode (.command 0b00100000000000110001) = (.crcByte 0b00110001) := by decide
theorem test_decode_crcAppend : decode (.command 0b00110010100110110001) = (.crcAppend 0b0010100110110001) := by decide
theorem test_decode_arqInit : decode (.command 0b01000000000000000000) = .arqInit := by decide
theorem test_decode_arqSend : decode (.command 0b01010000000000000001) = (.arqSend 0b0000000000000001) := by decide
theorem test_decode_rsvd6 : decode (.command 0b01100000000000000000) = .rsvd6 := by decide
theorem test_decode_rsvd7 : decode (.command 0b01110000000000000000) = .rsvd7 := by decide
theorem test_decode_rsvd8 : decode (.command 0b10000000000000000000) = .rsvd8 := by decide
theorem test_decode_rsvd9 : decode (.command 0b10010000000000000000) = .rsvd9 := by decide
theorem test_decode_rsvdA : decode (.command 0b10100000000000000000) = .rsvdA := by decide
theorem test_decode_rsvdB : decode (.command 0b10110000000000000000) = .rsvdB := by decide
theorem test_decode_rsvdC : decode (.command 0b11000000000000000000) = .rsvdC := by decide
theorem test_decode_rsvdD : decode (.command 0b11010000000000000000) = .rsvdD := by decide
theorem test_decode_rsvdE : decode (.command 0b11100000000000000000) = .rsvdE := by decide
theorem test_decode_rsvdF : decode (.command 0b11110000000000000000) = .rsvdF := by decide
theorem test_decode_rspDelivered : decode (.response 0b1) = .rspDelivered := by decide
theorem test_decode_rspLost : decode (.response 0b0) = .rspLost := by decide

/-- Junk in unused operand bits (vectors K2, K4, T18). -/
theorem test_decode_ignores_unused :
    decode (.command 0x1ABCD) = .crcInit ∧ decode (.command 0x2FF31) = .crcByte 0x31 ∧
      decode (.command 0x0FFFF) = .nop := by decide

/-- The encoder writes the words of R81's examples. -/
theorem test_encode_examples :
    encode (.crcByte 0x31) = .command 0x20031 ∧ encode (.crcAppend 0x29B1) = .command 0x329B1 ∧
      encode (.arqSend 0x0001) = .command 0x50001 ∧ encode .rspDelivered = .response 1 := by decide

theorem test_table_word_wider_than_port_refused :
    decodeTable 24 0x100000 = .error (.commandWiderThanPort 0x100000) ∧
      decodeTable 8 2 = .error (.responseWiderThanPort 2) ∧ decodeTableWord 24 0x100000 = none := by
  exact ⟨rfl, rfl, rfl⟩

/-! ### Well-formedness: an ill-formed term for each check, which the check refuses -/

theorem test_wf_crcByte : (AsmLine.crcByte 256).wellFormed = false ∧ (AsmLine.crcByte 255).wellFormed = true := by
  decide
theorem test_wf_crcAppend : (AsmLine.crcAppend 65536).wellFormed = false := by decide
theorem test_wf_arqSend : (AsmLine.arqSend 65536).wellFormed = false := by decide
theorem test_wf_rsvd : (AsmLine.rsvd 5).wellFormed = false ∧ (AsmLine.rsvd 16).wellFormed = false := by decide
theorem test_wf_crcCalc : (AsmLine.crcCalc [0, 256]).wellFormed = false := by decide
theorem test_wf_crcStr : (AsmLine.crcStr [Char.ofNat 128]).wellFormed = false := by decide
theorem test_wf_crcWord : (AsmLine.crcWord 65536).wellFormed = false := by decide
theorem test_wf_crcCheck : (AsmLine.crcCheck [256] 0).wellFormed = false ∧
    (AsmLine.crcCheck [] 65536).wellFormed = false := by decide
theorem test_wf_fixed_widths :
    ({ Config.hardware with crcW := 8 } : Config.Params).wellFormed = false ∧
    ({ Config.hardware with byteW := 7 } : Config.Params).wellFormed = false ∧
    ({ Config.hardware with seqW := 2 } : Config.Params).wellFormed = false ∧
    ({ Config.hardware with tagW := 8 } : Config.Params).wellFormed = false ∧
    ({ Config.hardware with cmdW := 24 } : Config.Params).wellFormed = false ∧
    ({ Config.hardware with retryDelay := 1 } : Config.Params).wellFormed = false := by decide
theorem test_wf_counter :
    ({ Config.hardware with attemptW := 33 } : Config.Params).wellFormed = false ∧
    ({ Config.hardware with attemptW := 0 } : Config.Params).wellFormed = false ∧
    ({ Config.hardware with attemptW := 2, maxAttempts := 4 } : Config.Params).wellFormed = false ∧
    ({ Config.hardware with attemptW := 2, maxAttempts := 3 } : Config.Params).wellFormed = true := by decide
theorem test_assemble_refuses_ill_formed : assemble [.nop, .crcByte 256] = none := by decide

/-! ### CRC arithmetic (vectors of sections 2.1 to 2.3) -/

theorem test_bitStep : bitStep 0x1021 0x8000 = 0x1021 ∧ bitStep 0x1021 0x0810 = 0x1020 ∧
    bitStep 0x1021 0xFFFF = 0xEFDF ∧ bitStep 0x1021 0xCEFF = 0x8DDF := by decide
theorem test_byteStep : byteStep 0x1021 0xFFFF 0x31 = 0xC782 ∧ byteStep 0x1021 0x1234 0x56 = 0x3C40 ∧
    byteStep 0x1021 0x0001 0x00 = 0x0100 := by decide
/-- The running values of vector B2 after each byte. -/
theorem test_crc16_running_values :
    byteStep 0x1021 0xFFFF 0x31 = 0xC782 ∧
    byteStep 0x1021 0xC782 0x32 = 0x3DBA ∧
    byteStep 0x1021 0x3DBA 0x33 = 0x5BCE ∧
    byteStep 0x1021 0x5BCE 0x34 = 0x5349 ∧
    byteStep 0x1021 0x5349 0x35 = 0x4560 ∧
    byteStep 0x1021 0x4560 0x36 = 0x2EF4 ∧
    byteStep 0x1021 0x2EF4 0x37 = 0x7718 ∧
    byteStep 0x1021 0x7718 0x38 = 0xA12B ∧
    byteStep 0x1021 0xA12B 0x39 = 0x29B1 := by
  refine ⟨?_, ?_, ?_, ?_, ?_, ?_, ?_, ?_, ?_⟩ <;> decide
/-- V3, the document's known vector. -/
theorem test_crc16_known_vector :
    crc16 0x1021 0xFFFF [0x31, 0x32, 0x33, 0x34, 0x35, 0x36, 0x37, 0x38, 0x39] = 0x29B1 := by
  obtain ⟨h1, h2, h3, h4, h5, h6, h7, h8, h9⟩ := test_crc16_running_values
  simp only [crc16, byteSteps, h1, h2, h3, h4, h5, h6, h7, h8, h9]
/-- V4 (R103), B3. -/
theorem test_crc16_others : crc16 0x1021 0xFFFF [] = 0xFFFF ∧ crc16 0x1021 0xFFFF [0x41] = 0xB915 := by decide
/-- The suffix of B2 in its order leaves zero (section 2.2). -/
theorem test_suffix_residue : byteSteps 0x1021 0x29B1 [0x29, 0xB1] = 0x0000 := by
  have h1 : byteStep 0x1021 0x29B1 0x29 = 0xB100 := by decide
  have h2 : byteStep 0x1021 0xB100 0xB1 = 0x0000 := by decide
  simp only [byteSteps, h1, h2]
/-- B12: the suffix in the wrong order leaves a residue. -/
theorem test_wrong_order_residue : byteSteps 0x1021 0x29B1 [0xB1, 0x29] = 0x93F3 := by
  have h1 : byteStep 0x1021 0x29B1 0xB1 = 0xB3B1 := by decide
  have h2 : byteStep 0x1021 0xB3B1 0x29 = 0x93F3 := by decide
  simp only [byteSteps, h1, h2]
theorem test_append : append [0x41] 0x29B1 = [0x41, 0x29, 0xB1] := by decide
/-- Saturation at another width (program P6c). -/
theorem test_satIncr_narrow : satIncr 2 2 = 3 ∧ satIncr 2 3 = 3 ∧ satIncr 32 0xFFFFFFFF = 0xFFFFFFFF := by decide

/-! ### One instruction each -/

/-- T18. -/
theorem test_nop : nextState (exec .nop { State.reset with errIllegal := true }) =
    some { State.reset with errIllegal := true } := by decide
/-- K1. -/
theorem test_crcInit : (nextState (exec .crcInit { State.reset with crc := 0x1234 })).map (·.crc) =
    some 0xFFFF := by decide
/-- K3. -/
theorem test_crcByte : (nextState (exec (.crcByte 0x31) State.reset)).map (·.crc) = some 0xC782 := by decide
/-- K8: while busy, `fsm` unchanged. -/
theorem test_crcByte_busy : nextState (exec (.crcByte 0x41) (arq 0 1 .awaitAck 1 .none)) =
    some { arq 0 1 .awaitAck 1 .none with crc := 0xB915 } := by decide
/-- K6. -/
theorem test_crcAppend : nextState (exec (.crcAppend 0x29B1) { State.reset with crc := 0x29B1 }) =
    some { State.reset with crc := 0x29B1, app := 0x29B1 } := by decide
/-- T11, T10. -/
theorem test_arqInit : nextState (exec .arqInit (arq 1 3 .idle 1 .delivered)) = some (arq 0 0 .idle 0 .none) := by
  decide
theorem test_arqInit_held : nextState (exec .arqInit (arq 0 1 .awaitAck 1 .none)) =
    some (arq 0 1 .awaitAck 1 .none) := by decide
/-- T2, T9. -/
theorem test_arqSend : nextState (exec (.arqSend 2) (arq 1 3 .idle 1 .delivered)) =
    some (arq 1 1 .awaitFrame 2 .none) := by decide
theorem test_arqSend_held : nextState (exec (.arqSend 2) (arq 0 1 .awaitFrame 1 .none)) =
    some (arq 0 1 .awaitFrame 1 .none) := by decide
/-- T3, T6. -/
theorem test_rspDelivered_frame : nextState (exec .rspDelivered (arq 0 1 .awaitFrame 1 .none)) =
    some (arq 0 1 .awaitAck 1 .none) := by decide
theorem test_rspDelivered_ack : nextState (exec .rspDelivered (arq 1 4 .awaitAck 2 .none)) =
    some (arq 0 4 .idle 2 .delivered) := by decide
/-- T12, T7. -/
theorem test_rspLost_saturates : nextState (exec .rspLost (arq 0 0xFFFFFFFF .awaitFrame 1 .none)) =
    some (arq 0 0xFFFFFFFF .awaitFrame 1 .none) := by decide
theorem test_rspLost_ack : nextState (exec .rspLost (arq 0 1 .awaitAck 1 .none)) =
    some (arq 0 2 .awaitFrame 1 .none) := by decide
/-! T17, for each reserved command. -/

theorem test_rsvd6 : nextState (exec .rsvd6 State.reset) = some { State.reset with errIllegal := true } := by decide
theorem test_rsvd7 : nextState (exec .rsvd7 State.reset) = some { State.reset with errIllegal := true } := by decide
theorem test_rsvd8 : nextState (exec .rsvd8 State.reset) = some { State.reset with errIllegal := true } := by decide
theorem test_rsvd9 : nextState (exec .rsvd9 State.reset) = some { State.reset with errIllegal := true } := by decide
theorem test_rsvdA : nextState (exec .rsvdA State.reset) = some { State.reset with errIllegal := true } := by decide
theorem test_rsvdB : nextState (exec .rsvdB State.reset) = some { State.reset with errIllegal := true } := by decide
theorem test_rsvdC : nextState (exec .rsvdC State.reset) = some { State.reset with errIllegal := true } := by decide
theorem test_rsvdD : nextState (exec .rsvdD State.reset) = some { State.reset with errIllegal := true } := by decide
theorem test_rsvdE : nextState (exec .rsvdE State.reset) = some { State.reset with errIllegal := true } := by decide
theorem test_rsvdF : nextState (exec .rsvdF State.reset) = some { State.reset with errIllegal := true } := by decide

/-! ### One step -/

/-- T15: a CRC command and an answer in one step. -/
theorem test_step_both : nextState (step ((arq 0 1 .awaitFrame 1 .none).present [Inputs.ofBoth 0x20041 1])) =
    some { arq 0 1 .awaitAck 1 .none with crc := 0xB915 } := by decide
/-- T16: readiness is taken from the state before the step. -/
theorem test_step_send_held_when_done :
    nextState (step ((arq 0 1 .awaitAck 1 .none).present [Inputs.ofBoth 0x50002 1])) =
      some (arq 1 1 .idle 1 .delivered) := by decide
/-- T19 and step 6 of program P4: reset with a command and an answer presented. -/
theorem test_step_reset :
    nextState (step ((arq 1 1 .awaitAck 2 .none).present [⟨true, true, 0x50003, true, 1⟩])) =
      some State.reset := by decide
theorem test_step_fetches_table_word :
    nextState (step (State.reset.withFetchWord 24 0x20031)) = some { State.reset with crc := 0xC782 } ∧
    nextState (step (State.reset.withFetchWord 8 1)) = some State.reset ∧
    nextState (step (State.reset.withFetchWord 24 0x70000)) = some { State.reset with errIllegal := true } := by
  decide
/-- Step 4 of program P5: the ceiling extension. -/
theorem test_ceiling :
    blockStep { Config.hardware with maxAttempts := 2 } (arq 0 2 .awaitAck 1 .none) (Inputs.ofResponse 0) =
      arq 0 2 .idle 1 .gaveUp := by decide
/-- The first message of vector A1, its last step. -/
theorem test_events_done : stepEvents Config.hardware (arq 0 1 .awaitAck 7 .none) (Inputs.ofResponse 1) =
    [.tx .ack 0 0, .rsp 1, .done 0 7 1] := by decide
/-- Step 10 of program P3: `done = 1` and `cmd_ready = 0` together. -/
theorem test_outputs_P3 : (arq 1 1 .awaitAck 2 .none).stepOutputs (Inputs.ofBoth 0x50003 1) =
    { cmdReady := false, done := true, loss := false } := by decide
/-- The expansion of `CRC.CHECK` (R82). -/
theorem test_assemble_check : assemble [.crcCheck [0x41] 0x29B1] =
    some [Inputs.ofCommand 0x10000, Inputs.ofCommand 0x20041, Inputs.ofCommand 0x20029, Inputs.ofCommand 0x200B1] := by
  decide

/-! ### Witnesses: the hypotheses of each statement can be met, clause by clause -/

/-- A state of a message's frame, one of its acknowledgment, and one between messages. -/
def frameState : State := arq 1 4 .awaitFrame 0xBEEF .none
def ackState : State := arq 1 4 .awaitAck 0xBEEF .none
def restState : State := arq 1 4 .idle 0xBEEF .delivered

/-- A sample with neither a command nor an answer that has effect, and one that resets. -/
def strayAnswer : Inputs := ⟨false, false, 0xFFFFF, true, 1⟩
def resetSample : Inputs := ⟨true, true, 0x50003, true, 1⟩

theorem witness_UnusedOperandBitsIgnored :
    (0x2FF31 : CommandWord) &&& usedBits 0x2FF31 = 0x20031 &&& usedBits 0x20031 ∧
    encode (.crcByte 0x31) = .command 0x20031 := by decide
theorem witness_CrcIsLinear : [(0x12 : Byte)].length = [(0xAB : Byte)].length ∧
    [(0xAB : Byte)].length = [(0x00 : Byte)].length := by decide
theorem witness_NopChangesNothing : opField 0x0FFFF = 0x0 := by decide
theorem witness_ReservedCommandsOnlyMark :
    Instr.rsvd6 ∈ [Instr.rsvd6, .rsvd7, .rsvd8, .rsvd9, .rsvdA, .rsvdB, .rsvdC, .rsvdD, .rsvdE, .rsvdF] ∧
    Instr.rsvdF ∈ [Instr.rsvd6, .rsvd7, .rsvd8, .rsvd9, .rsvdA, .rsvdB, .rsvdC, .rsvdD, .rsvdE, .rsvdF] ∧
    0x6 ≤ (opField 0x60000).toNat ∧ 0x6 ≤ (opField 0xFFFFF).toNat ∧ ¬ 0x6 ≤ (opField 0x5FFFF).toNat := by decide
theorem witness_CrcInitLoadsInitialValue : opField 0x1ABCD = 0x1 := by decide
theorem witness_CrcByteFoldsOneByte : opField 0x2FF31 = 0x2 := by decide
theorem witness_CrcAppendLatchesSuffix : opField 0x3FFFF = 0x3 ∧
    exec (.crcAppend 0xFFFF) restState = .next { restState with app := 0xFFFF } := ⟨by decide, rfl⟩
theorem witness_ArqInitCreatesFreshProtocol : restState.fsm = .idle ∧ ackState.fsm ≠ .idle ∧
    opField 0x4FFFF = 0x4 := by decide
theorem witness_ArqSendBeginsMessage : restState.fsm = .idle ∧ frameState.fsm ≠ .idle ∧
    opField 0x5FFFF = 0x5 ∧ exec (.arqSend 0xFFFF) restState = .next (arq 1 1 .awaitFrame 0xFFFF .none) :=
  ⟨by decide, by decide, by decide, rfl⟩
theorem witness_BusyHoldsArqCommands : frameState.fsm ≠ .idle ∧ opField 0x40000 = 0x4 ∧ opField 0x50001 = 0x5 ∧
    opField 0x60000 ≠ 0x4 ∧ opField 0x60000 ≠ 0x5 ∧ restState.fsm = .idle ∧
    (Inputs.ofCommand 0x50001).rst = false ∧ (Inputs.ofCommand 0x50001).cmdValid = true := by decide
theorem witness_RspDeliveredTransitions : frameState.fsm = .awaitFrame ∧ ackState.fsm = .awaitAck ∧
    restState.fsm = .idle ∧ (Inputs.ofBoth 0x20041 1).rst = false ∧ (Inputs.ofBoth 0x20041 1).rspValid = true ∧
    (Inputs.ofBoth 0x20041 1).rspDelivered = 1 ∧ frameState.accepts (Inputs.ofBoth 0x20041 1) = true := by decide
theorem witness_RspLostRetries : (arq 0 0xFFFFFFFF .awaitFrame 1 .none).fsm ≠ .idle ∧
    (arq 0 0xFFFFFFFE .awaitAck 1 .none).fsm ≠ .idle ∧ restState.fsm = .idle ∧
    (Inputs.ofResponse 0).rst = false ∧ (Inputs.ofResponse 0).rspValid = true ∧
    (Inputs.ofResponse 0).rspDelivered = 0 ∧
    exec .rspLost ackState = .next (arq 1 5 .awaitFrame 0xBEEF .none) :=
  ⟨by decide, by decide, by decide, by decide, by decide, by decide, rfl⟩
theorem witness_StrayResponseIgnored : restState.fsm = .idle := by decide
theorem witness_OnlyTheirWritersChangeElements :
    exec .rspDelivered ackState = .next (arq 0 4 .idle 0xBEEF .delivered) := rfl
theorem witness_UnitsDoNotInterfere :
    cycle (Inputs.ofBoth 0x20041 1) frameState = .next { ackState with crc := 0xB915 } ∧
    cycle (Inputs.ofBoth 0x20041 1) restState = .next { restState with crc := 0xB915 } ∧
    cycle (Inputs.ofBoth 0x20041 1) { frameState with crc := 0 } =
      .next { ackState with crc := byteStep 0x1021 0 0x41 } ∧
    frameState.crcPart = restState.crcPart ∧ frameState.arqPart = ({ frameState with crc := 0 } : State).arqPart :=
  ⟨rfl, rfl, rfl, rfl, rfl⟩
theorem witness_CommandAndResponseCommute : frameState.busy = true ∧ frameState.cmdReady 0x70000 = true ∧
    restState.busy = false := by decide
theorem witness_CrcCommandsCommuteWithArq :
    (Instr.crcByte 0x41 = .crcInit ∨ (∃ d, Instr.crcByte 0x41 = .crcByte d) ∨
      ∃ v, Instr.crcByte 0x41 = .crcAppend v) ∧
    (Instr.arqSend 1 = .arqInit ∨ (∃ v, Instr.arqSend 1 = .arqSend v) ∨ Instr.arqSend 1 = .rspDelivered ∨
      Instr.arqSend 1 = .rspLost) :=
  ⟨.inr (.inl ⟨0x41, rfl⟩), .inr (.inl ⟨1, rfl⟩)⟩
theorem witness_StepSamplesInputs :
    (frameState.present [Inputs.ofResponse 1]).inputs = [Inputs.ofResponse 1] ∧ frameState.inputs = [] := by decide
theorem witness_StepRunsDecodedInstruction :
    (frameState.present [Inputs.ofCommand 0x20041]).nextInputs = Inputs.ofCommand 0x20041 ∧
    (frameState.present [Inputs.ofResponse 1]).nextInputs = Inputs.ofResponse 1 ∧
    (ackState.present [Inputs.ofBoth 0x50002 1]).nextInputs = Inputs.ofBoth 0x50002 1 := ⟨rfl, rfl, rfl⟩
theorem witness_ResetOverridesEverything : resetSample.rst = true ∧ Inputs.ofReset.rst = true := by decide
theorem witness_ResetStateAndOutputs : resetSample.rst = true ∧ cycle resetSample ackState = .next State.reset :=
  ⟨by decide, rfl⟩
theorem witness_QuietStepChangesNothing : strayAnswer.rst = false ∧ restState.accepts strayAnswer = false ∧
    restState.answered strayAnswer = false ∧ (Inputs.ofCommand 0x50002).rst = false ∧
    frameState.accepts (Inputs.ofCommand 0x50002) = false ∧
    frameState.answered (Inputs.ofCommand 0x50002) = false := by decide
theorem witness_UnreadInputsIgnored :
    (⟨false, false, 0x10000, false, 1⟩ : Inputs) ≠ ⟨false, false, 0x20000, false, 0⟩ ∧
    (⟨true, false, 0, true, 1⟩ : Inputs).rst = resetSample.rst := by decide
theorem witness_TransitionTable :
    cycle (Inputs.ofCommand 0x40000) restState = .next (arq 0 0 .idle 0 .none) ∧
    cycle (Inputs.ofCommand 0x5FFFF) restState = .next (arq 1 1 .awaitFrame 0xFFFF .none) ∧
    cycle strayAnswer restState = .next restState ∧
    cycle Inputs.quiet frameState = .next frameState ∧
    cycle (Inputs.ofResponse 1) frameState = .next ackState ∧
    cycle (Inputs.ofResponse 1) ackState = .next (arq 0 4 .idle 0xBEEF .delivered) ∧
    cycle (Inputs.ofResponse 0) ackState = .next (arq 1 5 .awaitFrame 0xBEEF .none) :=
  ⟨rfl, rfl, rfl, rfl, rfl, rfl, rfl⟩
theorem witness_ArbiterGrantsByFsm : restState.fsm = .idle ∧ frameState.fsm = .awaitFrame ∧
    ackState.fsm = .awaitAck ∧ frameState.fsm ≠ .awaitAck ∧
    cycle (Inputs.ofResponse 1) frameState = .next ackState :=
  ⟨by decide, by decide, by decide, by decide, rfl⟩

theorem frameState_inv (p : Config.Params) (h : p.maxAttempts = 0 ∨ 4 ≤ p.maxAttempts) : Inv p frameState where
  gaveUpNeedsCeiling := fun e => nomatch e
  busyAttempted := fun _ => by decide
  busyNoResult := fun _ => rfl
  freshAtZero := fun e => absurd e (by decide)
  withinCeiling := fun e => by
    have : frameState.attempt.toNat = 4 := rfl
    omega

theorem witness_StateOutputPorts : Inv Config.hardware frameState := frameState_inv _ (.inl rfl)
theorem witness_StepKeepsInv : Inv Config.hardware (frameState.present [Inputs.ofResponse 0]) ∧
    step (frameState.present [Inputs.ofResponse 0]) = .next (arq 1 5 .awaitFrame 0xBEEF .none) :=
  ⟨{ frameState_inv Config.hardware (.inl rfl) with }, rfl⟩
theorem witness_BlockStepKeepsInvAtWellFormedParameters :
    ({ Config.hardware with maxAttempts := 4 } : Config.Params).wellFormed = true ∧
    Inv { Config.hardware with maxAttempts := 4 } frameState :=
  ⟨by decide, frameState_inv _ (.inr (Nat.le_refl 4))⟩
theorem witness_CeilingAbandonsLastAttempt :
    ({ Config.hardware with maxAttempts := 4 } : Config.Params).wellFormed = true ∧
    ({ Config.hardware with maxAttempts := 5 } : Config.Params).wellFormed = true ∧
    frameState.fsm ≠ .idle ∧ 4 ≤ frameState.attempt.toNat ∧ frameState.attempt.toNat < 5 := by decide
theorem witness_ErrIllegalSticky : cycle (Inputs.ofCommand 0x60000) frameState =
      .next { frameState with errIllegal := true } ∧
    cycle (Inputs.ofCommand 0x60000) { frameState with errIllegal := true } =
      .next { frameState with errIllegal := true } ∧
    cycle resetSample { frameState with errIllegal := true } = .next State.reset ∧ resetSample.rst = true ∧
    (Inputs.ofCommand 0x60000).rst = false := ⟨rfl, rfl, rfl, rfl, rfl⟩
theorem witness_OnlyResetOrDoneEndsMessage :
    step (ackState.present [Inputs.ofResponse 1]) = .next (arq 0 4 .idle 0xBEEF .delivered) ∧
    (ackState.present [Inputs.ofResponse 1]).busy = true ∧ (arq 0 4 .idle 0xBEEF .delivered).busy = false :=
  ⟨rfl, rfl, rfl⟩
theorem witness_MessageFixedWhileBusy :
    cycle (Inputs.ofResponse 1) frameState = .next ackState ∧ frameState.busy = true ∧ ackState.busy = true ∧
    cycle (Inputs.ofResponse 1) ackState = .next (arq 0 4 .idle 0xBEEF .delivered) ∧
    (arq 0 4 .idle 0xBEEF .delivered).busy = false := ⟨rfl, rfl, rfl, rfl, rfl⟩
theorem witness_UnitStableUntilAnswered : frameState.busy = true ∧
    frameState.answered (Inputs.ofCommand 0x70000) = false ∧
    cycle (Inputs.ofCommand 0x70000) frameState = .next { frameState with errIllegal := true } := ⟨rfl, rfl, rfl⟩
theorem witness_DoneMeansFrameAndAckOfOneAttempt : restState.busy = false ∧
    runInputs [Inputs.ofCommand 0x50001, Inputs.ofResponse 1] restState = .next (arq 1 1 .awaitAck 1 .none) ∧
    (arq 1 1 .awaitAck 1 .none).done (Inputs.ofResponse 1) = true := ⟨rfl, rfl, rfl⟩
theorem witness_SequenceBitAlternates :
    ∀ e ∈ trace Config.hardware [Inputs.ofCommand 0x50001, Inputs.ofResponse 1, Inputs.ofResponse 1] State.reset,
      e ≠ .reset ∧ e ≠ .cmd .arqInit := by decide
theorem witness_SequenceBitAlternates_next_message : State.reset.seq = 0 ∧
    runInputs [Inputs.ofCommand 0x50001, Inputs.ofResponse 1, Inputs.ofResponse 1] State.reset =
      .next (arq 1 1 .idle 1 .delivered) ∧
    exec (.arqSend 2) (arq 1 1 .idle 1 .delivered) = .next (arq 1 1 .awaitFrame 2 .none) := ⟨rfl, rfl, rfl⟩
theorem witness_AttemptIsOnePlusLosses : restState.busy = false ∧
    noReset [Inputs.ofResponse 0, Inputs.ofResponse 1] = true ∧
    deliveredCount Config.hardware
      [Inputs.ofCommand (commandWord 0x5 7), Inputs.ofResponse 0, Inputs.ofResponse 1] restState = 0 := by decide
theorem witness_MessageCompletesOnTwoDeliveries : frameState.fsm = .awaitFrame ∧
    noReset [Inputs.ofResponse 1, Inputs.ofResponse 1] = true ∧
    0 < deliveredCount Config.hardware [Inputs.ofResponse 1, Inputs.ofResponse 1] frameState := by decide
theorem witness_LossesKeepBlockBusy : frameState.fsm = .awaitFrame ∧
    noReset [Inputs.ofResponse 1, Inputs.ofResponse 0, Inputs.ofResponse 1] = true ∧
    ¬ [(1 : Bit), 1] <:+: answers [Inputs.ofResponse 1, Inputs.ofResponse 0, Inputs.ofResponse 1] ∧
    opField 0x40000 = 0x4 ∧ opField 0x50000 = 0x5 := by decide
theorem witness_StreamingLaw : noReset [Inputs.ofCommand 0x20041, Inputs.ofResponse 1] = true ∧
    (∀ i ∈ [Inputs.ofCommand 0x20041, Inputs.ofResponse 1], i.cmdValid = true → opField i.cmd ≠ 0x1) ∧
    frameState.crc = crc16 Config.hardware.crcPoly Config.hardware.crcInit [] ∧
    exec .crcInit frameState = .next frameState := ⟨by decide, by decide, rfl, rfl⟩
theorem witness_AssembledCalcComputesCrc : [0, 255].all isByte = true := by decide
theorem witness_ReadyProgramEnds : restState.fsm = .idle ∧
    (∀ w ∈ [(0x10000 : CommandWord), 0x20041, 0xF0000], opField w ≠ 0x4 ∧ opField w ≠ 0x5) ∧
    [none, some (1 : Bit), some 0].length = [(0x10000 : CommandWord), 0x20041, 0xF0000].length :=
  ⟨rfl, by intro w hw; simp only [List.mem_cons, List.not_mem_nil, or_false] at hw
           rcases hw with rfl | rfl | rfl <;> decide, rfl⟩
theorem witness_DeliveringChannelEndsProgram : restState.fsm = .idle ∧ [(7 : Handle), 7] ≠ [] ∧
    2 ≤ [(7 : Handle), 7].length := by decide
theorem witness_LosingChannelNeverEndsProgram : ∀ a ∈ [none, some (0 : Bit)], a ≠ some 1 := by decide

end Sys2Proof.Tests
end

/-! The CRC unit and the ARQ unit do not depend on each other (spec/00_scope.md R3). The CRC side is said as a
function: a cycle makes of the CRC unit what `crcUnitCycle` makes of it, with readiness nowhere in it, since the
only commands that are ever held leave the CRC unit alone. The ARQ side is said as a congruence: states that agree
on the ARQ unit have the same readiness and the same transition. -/

namespace Sys2Proof.Machine

/-! ### The parts of a cycle -/

theorem eq_resetBlock_of_cycle {i : Inputs} {s t : State} (hr : i.rst = true) (h : cycle i s = .next t) :
    t = resetBlock Config.hardware s := by
  simp only [cycle, hr, if_true] at h
  cases h
  rfl

/-- Outside reset a cycle is an answer's part and a command's part, the readiness taken before both. -/
theorem exists_response_command_of_cycle {i : Inputs} {s t : State} (hr : i.rst = false)
    (h : cycle i s = .next t) :
    ∃ u, runResponse i s = .next u ∧ runCommand (s.cmdReady i.cmd) i u = .next t := by
  simp only [cycle, hr, Bool.false_eq_true, if_false] at h
  exact andThen_eq_next h

/-! ### The CRC unit -/

/-- What an instruction makes of the CRC unit's two registers (spec/40_crc.md R107, R108, R110). -/
def crcUnit (e : Instr) (c : CrcWord × CrcWord) : CrcWord × CrcWord :=
  match e with
  | .crcInit => (Config.hardware.crcInit, c.2)
  | .crcByte d => (byteStep Config.hardware.crcPoly c.1 d, c.2)
  | .crcAppend v => (c.1, v)
  | _ => c

/-- What a cycle makes of the CRC unit's two registers: the channel's answer has no part in it. -/
def crcUnitCycle (i : Inputs) (c : CrcWord × CrcWord) : CrcWord × CrcWord :=
  if i.rst then (Config.hardware.crcInit, 0x0000)
  else if i.cmdValid then crcUnit (decodeCommand i.cmd) c
  else c

theorem holdWhileBusy_crcPart {f : State → State} {s : State} (hf : (f s).crcPart = s.crcPart) :
    (holdWhileBusy f s).crcPart = s.crcPart := by
  rcases holdWhileBusy_cases f s with ⟨-, h⟩ | ⟨-, h⟩ <;> rw [h]
  exact hf

@[simp] theorem retry_crcPart (p : Config.Params) (s : State) : (retry p s).crcPart = s.crcPart := by
  rcases retry_cases p s with ⟨-, -, h⟩ | ⟨-, h⟩ <;> rw [h] <;> rfl

@[simp] theorem respondDelivered_crcPart (s : State) : (respondDelivered s).crcPart = s.crcPart := by
  rcases respondDelivered_cases s with ⟨-, h⟩ | ⟨-, h⟩ | ⟨-, h⟩ <;> rw [h] <;> rfl

@[simp] theorem respondLost_crcPart (p : Config.Params) (s : State) :
    (respondLost p s).crcPart = s.crcPart := by
  rcases respondLost_cases p s with ⟨-, h⟩ | ⟨-, h⟩
  · rw [h]
  · rw [h, retry_crcPart]

theorem exec_crcPart {e : Instr} {s t : State} (h : exec e s = .next t) :
    t.crcPart = crcUnit e s.crcPart := by
  cases e with
  | nop | crcInit | crcByte _ | crcAppend _ => cases h; rfl
  | arqInit => cases h; exact holdWhileBusy_crcPart (f := freshProtocol) rfl
  | arqSend v => cases h; exact holdWhileBusy_crcPart (f := beginMessage v) rfl
  | rsvd6 | rsvd7 | rsvd8 | rsvd9 | rsvdA | rsvdB | rsvdC | rsvdD | rsvdE | rsvdF => cases h; rfl
  | rspDelivered => cases h; exact respondDelivered_crcPart s
  | rspLost => cases h; exact respondLost_crcPart _ s

theorem runResponse_crcPart {i : Inputs} {s t : State} (h : runResponse i s = .next t) :
    t.crcPart = s.crcPart := by
  unfold runResponse at h
  split at h
  · rw [exec_crcPart h]
    rcases decodeResponse_cases i.rspDelivered with ⟨-, hd⟩ | ⟨-, hd⟩ <;> rw [hd] <;> rfl
  · cases h; rfl

/-- Only the two ARQ commands are ever held. -/
theorem decodeCommand_of_not_ready {s : State} {w : CommandWord} (h : s.cmdReady w = false) :
    decodeCommand w = .arqInit ∨ decodeCommand w = .arqSend (operandC16 w) := by
  have ho : opField w = 0x4 ∨ opField w = 0x5 := by
    simp only [State.cmdReady, Bool.not_eq_false', Bool.and_eq_true, Bool.or_eq_true, beq_iff_eq] at h
    exact h.2
  exact ho.imp (fun h4 => by simp [decodeCommand, h4]) (fun h5 => by simp [decodeCommand, h5])

theorem crcUnit_of_not_ready {s : State} {w : CommandWord} (h : s.cmdReady w = false)
    (c : CrcWord × CrcWord) : crcUnit (decodeCommand w) c = c := by
  rcases decodeCommand_of_not_ready h with hd | hd <;> rw [hd] <;> rfl

/-- Whether the command was ready, and in which state, makes no difference to the CRC unit. -/
theorem runCommand_crcPart {i : Inputs} {s u t : State}
    (h : runCommand (s.cmdReady i.cmd) i u = .next t) :
    t.crcPart = if i.cmdValid then crcUnit (decodeCommand i.cmd) u.crcPart else u.crcPart := by
  unfold runCommand at h
  cases hv : i.cmdValid <;> cases hr : s.cmdReady i.cmd <;> simp only [hv, hr] at h
  · cases h; rfl
  · cases h; rfl
  · cases h; exact (crcUnit_of_not_ready hr u.crcPart).symm
  · exact exec_crcPart h

theorem cycle_crcPart {i : Inputs} {s t : State} (h : cycle i s = .next t) :
    t.crcPart = crcUnitCycle i s.crcPart := by
  cases hr : i.rst
  · obtain ⟨u, hu, ht⟩ := exists_response_command_of_cycle hr h
    rw [runCommand_crcPart ht, runResponse_crcPart hu]
    simp [crcUnitCycle, hr]
  · rw [eq_resetBlock_of_cycle hr h]
    simp [crcUnitCycle, hr, State.crcPart]

/-! ### The ARQ unit -/

/-- `f` makes the same ARQ unit of states with the same ARQ unit. -/
def ArqLocal (f : State → State) : Prop :=
  ∀ ⦃s s' : State⦄, s.arqPart = s'.arqPart → (f s).arqPart = (f s').arqPart

theorem arqPart_eq_iff {s s' : State} : s.arqPart = s'.arqPart ↔
    s.seq = s'.seq ∧ s.attempt = s'.attempt ∧ s.fsm = s'.fsm ∧ s.tag = s'.tag ∧ s.result = s'.result := by
  simp only [State.arqPart, Prod.mk.injEq]

theorem busy_congr {s s' : State} (h : s.arqPart = s'.arqPart) : s.busy = s'.busy := by
  obtain ⟨-, -, hfsm, -, -⟩ := arqPart_eq_iff.1 h
  simp only [State.busy, hfsm]

theorem cmdReady_congr {s s' : State} (h : s.arqPart = s'.arqPart) (w : CommandWord) :
    s.cmdReady w = s'.cmdReady w := by
  simp only [State.cmdReady, busy_congr h]

theorem grant_congr {s s' : State} (h : s.arqPart = s'.arqPart) : s.grant = s'.grant := by
  obtain ⟨hseq, -, hfsm, htag, -⟩ := arqPart_eq_iff.1 h
  simp only [State.grant, hseq, hfsm, htag]

theorem ArqLocal.of_arqPart_eq {f : State → State} (hf : ∀ s, (f s).arqPart = s.arqPart) : ArqLocal f :=
  fun s s' h => by rw [hf s, hf s', h]

theorem ArqLocal.holdWhileBusy {f : State → State} (hf : ArqLocal f) : ArqLocal (holdWhileBusy f) := by
  intro s s' h
  simp only [Machine.holdWhileBusy, busy_congr h]
  split
  · exact h
  · exact hf h

theorem freshProtocol_arqLocal : ArqLocal freshProtocol := by
  intro s s' h
  obtain ⟨-, -, hfsm, -, -⟩ := arqPart_eq_iff.1 h
  simp [arqPart_eq_iff, hfsm]

theorem beginMessage_arqLocal (v : Handle) : ArqLocal (beginMessage v) := by
  intro s s' h
  obtain ⟨hseq, -, -, -, -⟩ := arqPart_eq_iff.1 h
  simp [arqPart_eq_iff, hseq]

theorem frameDelivered_arqLocal : ArqLocal frameDelivered := by
  intro s s' h
  obtain ⟨hseq, hattempt, -, htag, hresult⟩ := arqPart_eq_iff.1 h
  simp [arqPart_eq_iff, hseq, hattempt, htag, hresult]

theorem ackDelivered_arqLocal : ArqLocal ackDelivered := by
  intro s s' h
  obtain ⟨hseq, hattempt, -, htag, -⟩ := arqPart_eq_iff.1 h
  simp [arqPart_eq_iff, hseq, hattempt, htag]

theorem nextAttempt_arqLocal (p : Config.Params) : ArqLocal (nextAttempt p) := by
  intro s s' h
  obtain ⟨hseq, hattempt, -, htag, hresult⟩ := arqPart_eq_iff.1 h
  simp [arqPart_eq_iff, hseq, hattempt, htag, hresult]

theorem abandon_arqLocal : ArqLocal abandon := by
  intro s s' h
  obtain ⟨hseq, hattempt, -, htag, -⟩ := arqPart_eq_iff.1 h
  simp [arqPart_eq_iff, hseq, hattempt, htag]

theorem retry_arqLocal (p : Config.Params) : ArqLocal (retry p) := by
  intro s s' h
  obtain ⟨-, hattempt, -, -, -⟩ := arqPart_eq_iff.1 h
  have hceiling : atCeiling p s = atCeiling p s' := by simp only [atCeiling, hattempt]
  cases hc : atCeiling p s' <;> simp only [retry, hceiling, hc]
  · exact nextAttempt_arqLocal p h
  · exact abandon_arqLocal h

theorem respondDelivered_arqLocal : ArqLocal respondDelivered := by
  intro s s' h
  obtain ⟨-, -, hfsm, -, -⟩ := arqPart_eq_iff.1 h
  simp only [respondDelivered, hfsm]
  cases s'.fsm with
  | idle => exact h
  | awaitFrame => exact frameDelivered_arqLocal h
  | awaitAck => exact ackDelivered_arqLocal h

theorem respondLost_arqLocal (p : Config.Params) : ArqLocal (respondLost p) := by
  intro s s' h
  obtain ⟨-, -, hfsm, -, -⟩ := arqPart_eq_iff.1 h
  simp only [respondLost, hfsm]
  cases s'.fsm with
  | idle => exact h
  | awaitFrame | awaitAck => exact retry_arqLocal p h

/-- Every instruction is one transition of the state that reads nothing but the ARQ unit to make the ARQ unit. -/
theorem exec_arqLocal (e : Instr) : ∃ f, ArqLocal f ∧ ∀ s, exec e s = .next (f s) := by
  cases e with
  | nop => exact ⟨id, .of_arqPart_eq fun _ => rfl, fun _ => rfl⟩
  | crcInit => exact ⟨loadCrc _, .of_arqPart_eq fun _ => rfl, fun _ => rfl⟩
  | crcByte d => exact ⟨foldByte _ d, .of_arqPart_eq fun _ => rfl, fun _ => rfl⟩
  | crcAppend v => exact ⟨loadSuffix v, .of_arqPart_eq fun _ => rfl, fun _ => rfl⟩
  | arqInit => exact ⟨_, freshProtocol_arqLocal.holdWhileBusy, fun _ => rfl⟩
  | arqSend v => exact ⟨_, (beginMessage_arqLocal v).holdWhileBusy, fun _ => rfl⟩
  | rsvd6 | rsvd7 | rsvd8 | rsvd9 | rsvdA | rsvdB | rsvdC | rsvdD | rsvdE | rsvdF =>
    exact ⟨markIllegal, .of_arqPart_eq fun _ => rfl, fun _ => rfl⟩
  | rspDelivered => exact ⟨_, respondDelivered_arqLocal, fun _ => rfl⟩
  | rspLost => exact ⟨_, respondLost_arqLocal _, fun _ => rfl⟩

theorem exec_arqPart_congr {e : Instr} {s s' t t' : State} (h : s.arqPart = s'.arqPart)
    (ht : exec e s = .next t) (ht' : exec e s' = .next t') : t.arqPart = t'.arqPart := by
  obtain ⟨f, hf, hexec⟩ := exec_arqLocal e
  rw [hexec] at ht ht'
  cases ht
  cases ht'
  exact hf h

theorem runResponse_arqPart_congr {i : Inputs} {s s' t t' : State} (h : s.arqPart = s'.arqPart)
    (ht : runResponse i s = .next t) (ht' : runResponse i s' = .next t') : t.arqPart = t'.arqPart := by
  unfold runResponse at ht ht'
  cases hv : i.rspValid <;> simp only [hv] at ht ht'
  · cases ht; cases ht'; exact h
  · exact exec_arqPart_congr h ht ht'

theorem runCommand_arqPart_congr {ready : Bool} {i : Inputs} {s s' t t' : State}
    (h : s.arqPart = s'.arqPart) (ht : runCommand ready i s = .next t)
    (ht' : runCommand ready i s' = .next t') : t.arqPart = t'.arqPart := by
  unfold runCommand at ht ht'
  cases hv : (i.cmdValid && ready) <;> simp only [hv] at ht ht'
  · cases ht; cases ht'; exact h
  · exact exec_arqPart_congr h ht ht'

theorem cycle_arqPart_congr {i : Inputs} {s s' t t' : State} (h : s.arqPart = s'.arqPart)
    (ht : cycle i s = .next t) (ht' : cycle i s' = .next t') : t.arqPart = t'.arqPart := by
  cases hr : i.rst
  · obtain ⟨u, hu, hcmd⟩ := exists_response_command_of_cycle hr ht
    obtain ⟨u', hu', hcmd'⟩ := exists_response_command_of_cycle hr ht'
    have hmid : u.arqPart = u'.arqPart := runResponse_arqPart_congr h hu hu'
    rw [cmdReady_congr h] at hcmd
    exact runCommand_arqPart_congr hmid hcmd hcmd'
  · rw [eq_resetBlock_of_cycle hr ht, eq_resetBlock_of_cycle hr ht']
    rfl

/-- Settles O25: the CRC unit's next registers are a function of its own (`cycle_crcPart`), and the ARQ unit's are
determined by its own (`cycle_arqPart_congr`), the grant being read off them. -/
theorem unitsDoNotInterfere : Obligations.UnitsDoNotInterfere := by
  intro i s s' t t' ht ht'
  constructor
  · intro hcrc
    rw [cycle_crcPart ht, cycle_crcPart ht', hcrc]
  · intro harq
    have hnext : t.arqPart = t'.arqPart := cycle_arqPart_congr harq ht ht'
    exact ⟨hnext, grant_congr hnext⟩

end Sys2Proof.Machine

/-! The invariants of a state (spec/10_state.md R39). Each named update keeps them under the condition in which the
block makes it, at any well-formed parameters; that they hold after every instruction, every cycle, every step of the
machine and every one-step function is then a case split over what each of these can do. -/

namespace Sys2Proof.Machine

/-! ### The invariants through the named updates -/

section
variable {p : Config.Params} {s t : State}

/-- The invariants speak of the ARQ unit alone. -/
theorem Inv.of_arqPart_eq (hs : Inv p s) (h : t.arqPart = s.arqPart) : Inv p t := by
  obtain ⟨hseq, hattempt, hfsm, htag, hresult⟩ := arqPart_eq_iff.1 h
  have hbusy : t.busy = s.busy := busy_congr h
  obtain ⟨hgaveUp, hattempted, hnoResult, hfresh, hceiling⟩ := hs
  constructor
  · rwa [hresult]
  · rwa [hbusy, hattempt]
  · rwa [hbusy, hresult]
  · rwa [hattempt, hfsm, hseq, htag, hresult]
  · rwa [hattempt]

theorem Inv.attempt_pos (hs : Inv p s) (hb : s.fsm ≠ .idle) : 1 ≤ s.attempt.toNat :=
  hs.busyAttempted ((busy_eq_true_iff s).2 hb)

theorem Inv.result_eq_none (hs : Inv p s) (hb : s.fsm ≠ .idle) : s.result = .none :=
  hs.busyNoResult ((busy_eq_true_iff s).2 hb)

theorem attempt_ne_zero_of_pos (h : 1 ≤ s.attempt.toNat) : s.attempt ≠ 0 := by
  intro h0
  simp [h0] at h

theorem resetBlock_inv (p : Config.Params) (s : State) : Inv p (resetBlock p s) := by
  constructor <;> simp [State.busy]

theorem freshProtocol_inv (p : Config.Params) (h : s.fsm = .idle) : Inv p (freshProtocol s) := by
  constructor <;> simp [State.busy, h]

/-- A first attempt is within every ceiling. -/
theorem beginMessage_inv (p : Config.Params) (v : Handle) (s : State) : Inv p (beginMessage v s) := by
  constructor
  case withinCeiling => intro hp; simpa using Nat.one_le_iff_ne_zero.2 hp
  all_goals simp

theorem frameDelivered_inv (hs : Inv p s) (h : s.fsm = .awaitFrame) : Inv p (frameDelivered s) := by
  have hb : s.fsm ≠ .idle := by simp [h]
  have hpos := hs.attempt_pos hb
  have hnone := hs.result_eq_none hb
  constructor
  case freshAtZero => exact fun h0 => absurd h0 (attempt_ne_zero_of_pos hpos)
  case withinCeiling => exact hs.withinCeiling
  all_goals simp [hpos, hnone]

theorem ackDelivered_inv (hs : Inv p s) (h : s.fsm = .awaitAck) : Inv p (ackDelivered s) := by
  have hpos := hs.attempt_pos (by simp [h])
  constructor
  case freshAtZero => exact fun h0 => absurd h0 (attempt_ne_zero_of_pos hpos)
  case withinCeiling => exact hs.withinCeiling
  all_goals simp [State.busy]

/-- A message is given up only where there is a ceiling (R39(b)). -/
theorem abandon_inv (hs : Inv p s) (hb : s.fsm ≠ .idle) (hp : p.maxAttempts ≠ 0) : Inv p (abandon s) := by
  have hpos := hs.attempt_pos hb
  constructor
  case gaveUpNeedsCeiling => exact fun _ => hp
  case freshAtZero => exact fun h0 => absurd h0 (attempt_ne_zero_of_pos hpos)
  case withinCeiling => exact hs.withinCeiling
  all_goals simp [State.busy]

/-- A counter of at least one bit never saturates at 0, and below the ceiling one more attempt does not pass it. -/
theorem nextAttempt_inv (hw : p.wellFormed = true) (hs : Inv p s) (hb : s.fsm ≠ .idle)
    (hp : p.maxAttempts = 0 ∨ s.attempt.toNat < p.maxAttempts) : Inv p (nextAttempt p s) := by
  obtain ⟨hwidth, hwidth32, -⟩ := counter_of_wellFormed hw
  have hnone := hs.result_eq_none hb
  have hvalue : (nextAttempt p s).attempt.toNat = min (s.attempt.toNat + 1) (2 ^ p.attemptW - 1) :=
    satIncr_toNat _ hwidth32 _
  have hmax : 1 < 2 ^ p.attemptW := Nat.one_lt_two_pow (by omega)
  have hpos : 1 ≤ (nextAttempt p s).attempt.toNat := by omega
  constructor
  case busyAttempted => exact fun _ => hpos
  case freshAtZero => exact fun h0 => absurd h0 (attempt_ne_zero_of_pos hpos)
  case withinCeiling => omega
  all_goals simp [hnone]

theorem retry_inv (hw : p.wellFormed = true) (hs : Inv p s) (hb : s.fsm ≠ .idle) : Inv p (retry p s) := by
  rcases retry_cases p s with ⟨hp, -, h⟩ | ⟨hp, h⟩ <;> rw [h]
  · exact abandon_inv hs hb hp
  · exact nextAttempt_inv hw hs hb hp

theorem respondDelivered_inv (hs : Inv p s) : Inv p (respondDelivered s) := by
  rcases respondDelivered_cases s with ⟨-, h⟩ | ⟨hf, h⟩ | ⟨hf, h⟩ <;> rw [h]
  · exact hs
  · exact frameDelivered_inv hs hf
  · exact ackDelivered_inv hs hf

theorem respondLost_inv (hw : p.wellFormed = true) (hs : Inv p s) : Inv p (respondLost p s) := by
  rcases respondLost_cases p s with ⟨-, h⟩ | ⟨hb, h⟩ <;> rw [h]
  · exact hs
  · exact retry_inv hw hs hb

theorem holdWhileBusy_inv {f : State → State} (hs : Inv p s) (hf : s.fsm = .idle → Inv p (f s)) :
    Inv p (holdWhileBusy f s) := by
  rcases holdWhileBusy_cases f s with ⟨hidle, h⟩ | ⟨-, h⟩ <;> rw [h]
  · exact hf hidle
  · exact hs

end

/-! ### The machine -/

section
variable {s t : State}

theorem exec_keeps_inv {e : Instr} (h : exec e s = .next t) (hs : Inv Config.hardware s) :
    Inv Config.hardware t := by
  cases e with
  | nop | crcInit | crcByte _ | crcAppend _ => cases h; exact hs.of_arqPart_eq rfl
  | arqInit => cases h; exact holdWhileBusy_inv hs (freshProtocol_inv _)
  | arqSend v => cases h; exact holdWhileBusy_inv hs fun _ => beginMessage_inv _ v s
  | rsvd6 | rsvd7 | rsvd8 | rsvd9 | rsvdA | rsvdB | rsvdC | rsvdD | rsvdE | rsvdF =>
    cases h; exact hs.of_arqPart_eq rfl
  | rspDelivered => cases h; exact respondDelivered_inv hs
  | rspLost => cases h; exact respondLost_inv hardware_wellFormed hs

theorem runResponse_keeps_inv {i : Inputs} (h : runResponse i s = .next t) (hs : Inv Config.hardware s) :
    Inv Config.hardware t := by
  unfold runResponse at h
  split at h
  · exact exec_keeps_inv h hs
  · cases h; exact hs

theorem runCommand_keeps_inv {ready : Bool} {i : Inputs} (h : runCommand ready i s = .next t)
    (hs : Inv Config.hardware s) : Inv Config.hardware t := by
  unfold runCommand at h
  split at h
  · exact exec_keeps_inv h hs
  · cases h; exact hs

theorem cycle_keeps_inv {i : Inputs} (h : cycle i s = .next t) (hs : Inv Config.hardware s) :
    Inv Config.hardware t := by
  cases hr : i.rst
  · obtain ⟨u, hu, ht⟩ := exists_response_command_of_cycle hr h
    exact runCommand_keeps_inv ht (runResponse_keeps_inv hu hs)
  · rw [eq_resetBlock_of_cycle hr h]
    exact resetBlock_inv _ s

theorem takeInputs_arqPart (s : State) : s.takeInputs.arqPart = s.arqPart := by
  rw [takeInputs_fields]
  rfl

end

/-- Settles O42: using up a sample leaves the ARQ unit alone, and a cycle keeps the invariants. -/
theorem stepKeepsInv : Obligations.StepKeepsInv :=
  fun s _ hs h => cycle_keeps_inv h (hs.of_arqPart_eq (takeInputs_arqPart s))

/-- Settles O41: the reset state is one that a reset step leaves. -/
theorem invHoldsAtReset : Obligations.InvHoldsAtReset := resetBlock_inv Config.hardware State.reset

/-! ### The one-step function at any parameters -/

section
variable {p : Config.Params} {s : State}

theorem blockResponse_inv (hw : p.wellFormed = true) (hs : Inv p s) (i : Inputs) :
    Inv p (blockResponse p s i) := by
  rcases blockResponse_cases p s i with ⟨-, h⟩ | ⟨-, -, hf, h⟩ | ⟨-, -, hf, h⟩ | ⟨-, -, hb, h⟩ <;> rw [h]
  · exact hs
  · exact frameDelivered_inv hs hf
  · exact ackDelivered_inv hs hf
  · exact retry_inv hw hs hb

/-- With no message being sent the channel has nothing to answer (spec/41_channel.md R139). -/
theorem blockResponse_of_idle (p : Config.Params) (h : s.fsm = .idle) (i : Inputs) :
    blockResponse p s i = s := by
  simp [blockResponse, h]

/-- The two ARQ commands are the only ones that write the ARQ unit. -/
theorem blockCommand_cases (p : Config.Params) (s : State) (w : CommandWord) (s' : State) :
    (opField w = 0x4 ∧ blockCommand p s w s' = freshProtocol s') ∨
    (opField w = 0x5 ∧ blockCommand p s w s' = beginMessage (operandC16 w) s') ∨
    (blockCommand p s w s').arqPart = s'.arqPart := by
  by_cases h4 : opField w = 0x4
  · exact .inl ⟨h4, by simp [blockCommand, h4, freshProtocol]⟩
  by_cases h5 : opField w = 0x5
  · exact .inr (.inl ⟨h5, by simp [blockCommand, h5, beginMessage]⟩)
  have h4' : (opField w).toNat ≠ 4 := fun h => h4 (BitVec.eq_of_toNat_eq h)
  have h5' : (opField w).toNat ≠ 5 := fun h => h5 (BitVec.eq_of_toNat_eq h)
  refine .inr (.inr ?_)
  unfold blockCommand
  split
  case h_5 h => exact absurd h h4'
  case h_6 h => exact absurd h h5'
  all_goals rfl

/-- An accepted command finds the block idle or is no ARQ command (spec/42_arq.md R163). -/
theorem blockCommand_inv {i : Inputs} (ha : s.accepts i = true)
    (hs : Inv p (blockResponse p s i)) : Inv p (blockCommand p s i.cmd (blockResponse p s i)) := by
  rcases blockCommand_cases p s i.cmd (blockResponse p s i) with ⟨h4, h⟩ | ⟨-, h⟩ | h
  · have hidle : s.fsm = .idle := by
      by_contra hb
      exact (opField_of_accepts_busy ((busy_eq_true_iff s).2 hb) ha).1 h4
    rw [h, blockResponse_of_idle p hidle]
    exact freshProtocol_inv p hidle
  · rw [h]
    exact beginMessage_inv p _ _
  · exact hs.of_arqPart_eq h

end

/-- Settles O43: the reset, the channel's answer and the accepted command each keep the invariants. -/
theorem blockStepKeepsInvAtWellFormedParameters : Obligations.BlockStepKeepsInvAtWellFormedParameters := by
  intro p s i hw hs
  have hresponse : Inv p (blockResponse p s i) := blockResponse_inv hw hs i
  rcases blockStep_cases p s i with ⟨-, h⟩ | ⟨-, h⟩ <;> rw [h]
  · exact resetBlock_inv p s
  · split
    · exact blockCommand_inv ‹_› hresponse
    · exact hresponse

end Sys2Proof.Machine

/-! Who writes which element (spec/10_state.md R38), and the sticky mark `err_illegal` (R29): a cycle's mark is the one
before or that of the presented command, and a cycle reads it nowhere. -/

namespace Sys2Proof.Machine

/-! ### The writers of each element -/

/-- Settles O24: per instruction, the fields that its named update leaves alone. -/
theorem onlyTheirWritersChangeElements : Obligations.OnlyTheirWritersChangeElements := by
  intro i s t h
  cases i with
  | nop => cases h; simp
  | crcInit | crcByte _ | crcAppend _ => cases h; simp [State.inputPart, foldByte]
  | arqInit =>
    cases h
    rcases holdWhileBusy_cases freshProtocol s with ⟨-, hf⟩ | ⟨-, hf⟩ <;> simp [hf, State.inputPart]
  | arqSend v =>
    cases h
    rcases holdWhileBusy_cases (beginMessage v) s with ⟨-, hf⟩ | ⟨-, hf⟩ <;> simp [hf, State.inputPart]
  | rsvd6 | rsvd7 | rsvd8 | rsvd9 | rsvdA | rsvdB | rsvdC | rsvdD | rsvdE | rsvdF =>
    cases h; simp [tableRow, State.inputPart]
  | rspDelivered =>
    cases h
    rcases respondDelivered_cases s with ⟨-, hf⟩ | ⟨-, hf⟩ | ⟨-, hf⟩ <;> simp [hf, State.inputPart]
  | rspLost =>
    cases h
    rcases respondLost_cases Config.hardware s with ⟨-, hf⟩ | ⟨-, hf⟩ <;> simp [hf, State.inputPart]

/-! ### What sets `err_illegal` -/

/-- The instruction is a reserved command, by its row of spec/opcode_table.json. -/
def marksIllegal (e : Instr) : Bool := decide (0x60000 ≤ (tableRow e).1)

theorem tableRow_decodeCommand (w : CommandWord) :
    (tableRow (decodeCommand w)).1 = (opField w).toNat * 2 ^ 16 := by
  rcases decodeCommand_cases w with h | h | h | h | h | h | h | h | h | h | h | h | h | h | h | h <;>
    obtain ⟨hop, hdecode⟩ := h <;> rw [hop, hdecode] <;> rfl

theorem marksIllegal_decodeCommand (w : CommandWord) :
    marksIllegal (decodeCommand w) = decide (0x6 ≤ (opField w).toNat) := by
  rw [marksIllegal, tableRow_decodeCommand, decide_eq_decide]
  omega

theorem marksIllegal_decodeResponse (d : Bit) : marksIllegal (decodeResponse d) = false := by
  rcases decodeResponse_cases d with ⟨-, h⟩ | ⟨-, h⟩ <;> rw [h] <;> rfl

theorem marksIllegal_of_not_ready {s : State} {w : CommandWord} (h : s.cmdReady w = false) :
    marksIllegal (decodeCommand w) = false := by
  rcases decodeCommand_of_not_ready h with hd | hd <;> rw [hd] <;> rfl

/-- An instruction that is no reserved command leaves the mark as it was (R38), and a reserved one sets it. -/
theorem exec_errIllegal {e : Instr} {s t : State} (h : exec e s = .next t) :
    t.errIllegal = (s.errIllegal || marksIllegal e) := by
  cases hm : marksIllegal e
  · obtain ⟨-, -, -, -, -, -, -, hwriter, -⟩ := onlyTheirWritersChangeElements e s t h
    rw [Bool.or_false]
    by_contra hne
    simp [marksIllegal, hwriter hne] at hm
  · rw [Bool.or_true]
    cases e with
    | rsvd6 | rsvd7 | rsvd8 | rsvd9 | rsvdA | rsvdB | rsvdC | rsvdD | rsvdE | rsvdF => cases h; rfl
    | _ => simp [marksIllegal, tableRow] at hm

theorem runResponse_errIllegal {i : Inputs} {s t : State} (h : runResponse i s = .next t) :
    t.errIllegal = s.errIllegal := by
  unfold runResponse at h
  split at h
  · rw [exec_errIllegal h, marksIllegal_decodeResponse, Bool.or_false]
  · cases h; rfl

/-- Reserved commands are never held, so readiness makes no difference to the mark. -/
theorem runCommand_errIllegal {i : Inputs} {s u t : State}
    (h : runCommand (s.cmdReady i.cmd) i u = .next t) :
    t.errIllegal = (u.errIllegal || (i.cmdValid && marksIllegal (decodeCommand i.cmd))) := by
  unfold runCommand at h
  cases hv : i.cmdValid <;> cases hr : s.cmdReady i.cmd <;> simp only [hv, hr] at h
  · cases h; simp
  · cases h; simp
  · cases h; simp [marksIllegal_of_not_ready hr]
  · simp [exec_errIllegal h]

theorem cycle_errIllegal {i : Inputs} {s t : State} (hr : i.rst = false) (h : cycle i s = .next t) :
    t.errIllegal = (s.errIllegal || (i.cmdValid && decide (0x6 ≤ (opField i.cmd).toNat))) := by
  obtain ⟨u, hu, ht⟩ := exists_response_command_of_cycle hr h
  rw [runCommand_errIllegal ht, runResponse_errIllegal hu, marksIllegal_decodeCommand]

/-! ### `err_illegal` is read nowhere -/

/-- The state with another mark. -/
def State.withErrIllegal (b : Bool) (s : State) : State := { s with errIllegal := b }

theorem withErrIllegal_self {b : Bool} {s : State} (h : s.errIllegal = b) : s.withErrIllegal b = s := by
  subst h
  rfl

section
variable (b : Bool) (s : State)

theorem cmdReady_withErrIllegal (w : CommandWord) : (s.withErrIllegal b).cmdReady w = s.cmdReady w := rfl

theorem holdWhileBusy_withErrIllegal {f : State → State}
    (hf : f (s.withErrIllegal b) = (f s).withErrIllegal b) :
    holdWhileBusy f (s.withErrIllegal b) = (holdWhileBusy f s).withErrIllegal b := by
  have hbusy : (s.withErrIllegal b).busy = s.busy := rfl
  unfold holdWhileBusy
  rw [hbusy]
  split
  · rfl
  · exact hf

theorem respondDelivered_withErrIllegal :
    respondDelivered (s.withErrIllegal b) = (respondDelivered s).withErrIllegal b := by
  have hfsm : (s.withErrIllegal b).fsm = s.fsm := rfl
  unfold respondDelivered
  rw [hfsm]
  cases s.fsm <;> rfl

theorem respondLost_hardware_withErrIllegal :
    respondLost Config.hardware (s.withErrIllegal b) = (respondLost Config.hardware s).withErrIllegal b := by
  have hfsm : (s.withErrIllegal b).fsm = s.fsm := rfl
  unfold respondLost
  rw [hfsm, retry_hardware, retry_hardware]
  cases s.fsm <;> rfl

end

/-- With another mark beforehand an instruction answers the same state, the mark apart. -/
theorem exec_withErrIllegal (e : Instr) (b : Bool) {s t : State} (h : exec e s = .next t) :
    ∃ c, exec e (s.withErrIllegal b) = .next (t.withErrIllegal c) := by
  cases e with
  | nop | crcInit | crcByte _ | crcAppend _ => cases h; exact ⟨b, rfl⟩
  | arqInit => cases h; exact ⟨b, congrArg _ (holdWhileBusy_withErrIllegal b s (f := freshProtocol) rfl)⟩
  | arqSend v => cases h; exact ⟨b, congrArg _ (holdWhileBusy_withErrIllegal b s (f := beginMessage v) rfl)⟩
  | rsvd6 | rsvd7 | rsvd8 | rsvd9 | rsvdA | rsvdB | rsvdC | rsvdD | rsvdE | rsvdF =>
    cases h; exact ⟨true, rfl⟩
  | rspDelivered => cases h; exact ⟨b, congrArg _ (respondDelivered_withErrIllegal b s)⟩
  | rspLost => cases h; exact ⟨b, congrArg _ (respondLost_hardware_withErrIllegal b s)⟩

theorem runResponse_withErrIllegal {i : Inputs} (b : Bool) {s t : State} (h : runResponse i s = .next t) :
    ∃ c, runResponse i (s.withErrIllegal b) = .next (t.withErrIllegal c) := by
  unfold runResponse at h ⊢
  split_ifs at h ⊢
  · exact exec_withErrIllegal _ b h
  · cases h; exact ⟨b, rfl⟩

theorem runCommand_withErrIllegal {ready : Bool} {i : Inputs} (b : Bool) {s t : State}
    (h : runCommand ready i s = .next t) :
    ∃ c, runCommand ready i (s.withErrIllegal b) = .next (t.withErrIllegal c) := by
  unfold runCommand at h ⊢
  split_ifs at h ⊢
  · exact exec_withErrIllegal _ b h
  · cases h; exact ⟨b, rfl⟩

theorem cycle_withErrIllegal {i : Inputs} (b : Bool) {s t : State} (h : cycle i s = .next t) :
    ∃ c, cycle i (s.withErrIllegal b) = .next (t.withErrIllegal c) := by
  cases hr : i.rst
  · obtain ⟨u, hu, ht⟩ := exists_response_command_of_cycle hr h
    obtain ⟨c, hu'⟩ := runResponse_withErrIllegal b hu
    obtain ⟨d, ht'⟩ := runCommand_withErrIllegal c ht
    refine ⟨d, ?_⟩
    rw [cycle, hr, hu', cmdReady_withErrIllegal]
    exact ht'
  · refine ⟨false, ?_⟩
    rw [eq_resetBlock_of_cycle hr h, cycle, hr]
    rfl

/-- Settles O45: the mark after a cycle by `cycle_errIllegal`, and that no cycle reads it by
`cycle_withErrIllegal`. -/
theorem errIllegalSticky : Obligations.ErrIllegalSticky := by
  intro i s t h
  refine ⟨fun hr => ?_, fun hr => ?_, fun b t' h' => ?_, rfl⟩
  · rw [eq_resetBlock_of_cycle hr h, resetBlock_errIllegal]
  · simp [cycle_errIllegal hr h]
  · obtain ⟨c, hc⟩ := cycle_withErrIllegal b h
    have ht' : t' = t.withErrIllegal c := by
      cases h'.symm.trans hc
      rfl
    rw [ht']
    rfl

end Sys2Proof.Machine

/-! Where a step's inputs come from, and what the ports show (spec/10_state.md R30, R32, R33; spec/30_encoding.md R77,
R78): each status bit and pulse as a condition on the state and the inputs, and that each code stands for one value. -/

namespace Sys2Proof.Machine

/-- Settles O28. -/
theorem stepSamplesInputs : Obligations.StepSamplesInputs := by
  refine ⟨fun s i is h => ?_, fun s h => ?_, fun s pw => step_present_cons pw.inputs [] s⟩ <;>
    simp only [step, State.nextInputs, State.takeInputs, h]

/-! ### Status bits and pulses -/

section
variable (s : State)

theorem crcZero_eq_true_iff : s.crcZero = true ↔ s.crc = 0x0000 := beq_iff_eq

theorem txKind_eq_true_iff : s.txKind = true ↔ s.fsm = .awaitAck := by
  cases h : s.fsm <;> simp [State.txKind, h]

theorem cmdReady_eq_false_iff (w : CommandWord) :
    s.cmdReady w = false ↔ s.fsm ≠ .idle ∧ (opField w = 0x4 ∨ opField w = 0x5) := by
  simp only [State.cmdReady, Bool.not_eq_false', Bool.and_eq_true, Bool.or_eq_true, beq_iff_eq,
    busy_eq_true_iff]

theorem done_eq_true_iff (i : Inputs) :
    s.done i = true ↔ i.rst = false ∧ s.fsm = .awaitAck ∧ i.rspValid = true ∧ i.rspDelivered = 1 := by
  simp [State.done, and_assoc]

theorem loss_eq_true_iff (i : Inputs) :
    s.loss i = true ↔ i.rst = false ∧ s.fsm ≠ .idle ∧ i.rspValid = true ∧ i.rspDelivered = 0 := by
  simp [State.loss, busy_eq_true_iff, and_assoc]

end

/-- Settles O39. -/
theorem statusBits : Obligations.StatusBits :=
  ⟨fun s => ⟨crcZero_eq_true_iff s, busy_eq_true_iff s, busy_eq_true_iff s, txKind_eq_true_iff s⟩,
    by decide, rfl, rfl, rfl⟩

/-- Settles O40. -/
theorem pulsesExact : Obligations.PulsesExact :=
  fun s i => ⟨cmdReady_eq_false_iff s i.cmd, done_eq_true_iff s i, loss_eq_true_iff s i, fun _ => rfl⟩

/-! ### The ports that show the state -/

theorem Fsm.code_inj (x y : Fsm) : x.code = y.code ↔ x = y := by
  cases x <;> cases y <;> decide

theorem MessageResult.code_inj (x y : MessageResult) : x.code = y.code ↔ x = y := by
  cases x <;> cases y <;> decide

theorem MessageResult.code_ne_unused (r : MessageResult) : r.code ≠ 0b11 := by
  cases r <;> decide

theorem txTag_eq (s : State) : s.txTag = if s.fsm = .awaitFrame then s.tag else 0x0000 := by
  cases h : s.fsm <;> simp [State.txTag, h]

/-- This hardware has no ceiling, so no message is given up (R39(b)). -/
theorem result_ne_gaveUp {s : State} (hs : Inv Config.hardware s) : s.result ≠ .gaveUp :=
  fun h => hs.gaveUpNeedsCeiling h rfl

/-- Settles O60: the ports are the elements, and a code tells which value it stands for. -/
theorem stateOutputPorts : Obligations.StateOutputPorts := by
  constructor
  · intro s
    exact ⟨rfl, rfl, rfl, rfl, rfl, rfl,
      MessageResult.code_inj _ .none, MessageResult.code_inj _ .delivered, MessageResult.code_inj _ .gaveUp,
      MessageResult.code_ne_unused _,
      Fsm.code_inj _ .idle, Fsm.code_inj _ .awaitFrame, Fsm.code_inj _ .awaitAck,
      crcZero_eq_true_iff s, busy_eq_true_iff s, busy_eq_true_iff s, txKind_eq_true_iff s, rfl, txTag_eq s⟩
  · intro s hs h
    exact result_ne_gaveUp hs ((MessageResult.code_inj _ .gaveUp).1 h)

end Sys2Proof.Machine

/-! Two instructions commute when the one leaves the ARQ unit alone and the other the CRC unit (spec/20_memory.md R62):
each unit then sees one instruction only, and `err_illegal` is set by either of them, in either order. -/

namespace Sys2Proof.Machine

/-- The CRC unit, the ARQ unit, the mark and the coming inputs are all there is in a state (spec/10_state.md R20). -/
theorem State.eq_of_parts {s t : State} (hcrc : s.crcPart = t.crcPart) (harq : s.arqPart = t.arqPart)
    (herr : s.errIllegal = t.errIllegal) (hinput : s.inputPart = t.inputPart) : s = t := by
  cases s
  cases t
  cases hcrc
  cases harq
  cases herr
  cases hinput
  rfl

theorem exec_inputPart {e : Instr} {s t : State} (h : exec e s = .next t) : t.inputPart = s.inputPart := by
  obtain ⟨-, -, -, -, -, -, -, -, hinput⟩ := onlyTheirWritersChangeElements e s t h
  exact hinput

/-- Part by part: the CRC unit sees `c` alone, the ARQ unit `e` alone, and the marks of both are put together. -/
theorem andThen_exec_comm {c e : Instr} (hc : ∀ s t, exec c s = .next t → t.arqPart = s.arqPart)
    (he : ∀ x, crcUnit e x = x) (s : State) :
    andThen (exec c s) (exec e) = andThen (exec e s) (exec c) := by
  obtain ⟨t, ht⟩ := exec_answers_next c s
  obtain ⟨t', ht'⟩ := exec_answers_next e t
  obtain ⟨u, hu⟩ := exec_answers_next e s
  obtain ⟨u', hu'⟩ := exec_answers_next c u
  have hcrc : t'.crcPart = u'.crcPart := by
    rw [exec_crcPart ht', he, exec_crcPart ht, exec_crcPart hu', exec_crcPart hu, he]
  have harq : t'.arqPart = u'.arqPart := by
    rw [hc u u' hu']
    exact exec_arqPart_congr (hc s t ht) ht' hu
  have herr : t'.errIllegal = u'.errIllegal := by
    rw [exec_errIllegal ht', exec_errIllegal ht, exec_errIllegal hu', exec_errIllegal hu, Bool.or_right_comm]
  have hinput : t'.inputPart = u'.inputPart := by
    rw [exec_inputPart ht', exec_inputPart ht, exec_inputPart hu', exec_inputPart hu]
  rw [ht, hu, andThen_next, andThen_next, ht', hu', State.eq_of_parts hcrc harq herr hinput]

theorem exec_crcCommand_arqPart {c : Instr}
    (hc : c = .crcInit ∨ (∃ d, c = .crcByte d) ∨ ∃ v, c = .crcAppend v) {s t : State}
    (h : exec c s = .next t) : t.arqPart = s.arqPart := by
  rcases hc with rfl | ⟨d, rfl⟩ | ⟨v, rfl⟩ <;> cases h <;> rfl

theorem crcUnit_arqEvent {e : Instr}
    (he : e = .arqInit ∨ (∃ v, e = .arqSend v) ∨ e = .rspDelivered ∨ e = .rspLost) (x : CrcWord × CrcWord) :
    crcUnit e x = x := by
  rcases he with rfl | ⟨v, rfl⟩ | rfl | rfl <;> rfl

/-- Settles O27: a CRC command leaves the ARQ unit alone, and an ARQ command or an answer the CRC unit. -/
theorem crcCommandsCommuteWithArq : Obligations.CrcCommandsCommuteWithArq :=
  fun s _ _ hc he => andThen_exec_comm (fun _ _ => exec_crcCommand_arqPart hc) (crcUnit_arqEvent he) s

end Sys2Proof.Machine

/-! The encoder and the decoder (spec/30_encoding.md R70 to R75, R80, R81). Decoding inverts encoding, so an instruction
is determined by its word; encoding a decoded word clears the operand bits that the command's form does not use. What
the decoder makes of unused bits and of the assembler's table words follows from these two facts. -/

namespace Sys2Proof

/-! ### Decoding inverts encoding -/

/-- Settles O1: the opcode field of an encoded command selects its arm of the decoder, and the operand field gives the
operand back. -/
theorem decodeInvertsEncode : Obligations.DecodeInvertsEncode := by
  intro i
  cases i with
  | crcByte d => simp [encode, decode, decodeCommand]
  | crcAppend v | arqSend v => simp [encode, decode, decodeCommand]
  | nop | crcInit | arqInit => rfl
  | rsvd6 | rsvd7 | rsvd8 | rsvd9 | rsvdA | rsvdB | rsvdC | rsvdD | rsvdE | rsvdF => rfl
  | rspDelivered | rspLost => rfl

theorem encode_injective : Function.Injective encode :=
  Function.LeftInverse.injective decodeInvertsEncode

theorem decodeCommand_of_encode {i : Instr} {w : CommandWord} (h : encode i = .command w) :
    decodeCommand w = i := by
  rw [← decodeInvertsEncode i, h]
  rfl

theorem decodeResponse_of_encode {i : Instr} {d : Bit} (h : encode i = .response d) :
    decodeResponse d = i := by
  rw [← decodeInvertsEncode i, h]
  rfl

/-! ### The canonical word -/

theorem commandWord_and_commandWord (op op' : BitVec 4) (v v' : BitVec 16) :
    commandWord op v &&& commandWord op' v' = commandWord (op &&& op') (v &&& v') := by
  apply BitVec.eq_of_getLsbD_eq
  intro k hk
  by_cases h : k < 16
  · simp [commandWord, hk, h]
  · have hv : v.getLsbD k = false := BitVec.getLsbD_of_ge _ _ (by omega)
    have hv' : v'.getLsbD k = false := BitVec.getLsbD_of_ge _ _ (by omega)
    simp [commandWord, hk, h, hv, hv']

/-- A mask that keeps the opcode keeps of a word its opcode and what the mask's operand keeps of the operand. -/
theorem and_commandWord (w : CommandWord) (m : BitVec 16) :
    w &&& commandWord 0xF m = commandWord (opField w) (operandC16 w &&& m) := by
  have hop : opField w &&& 0xF = opField w := BitVec.and_allOnes
  rw [← hop, ← commandWord_and_commandWord, commandWord_opField_operandC16]

theorem operandC16_and_byte (w : CommandWord) : operandC16 w &&& 0xFF = (operandC8 w).setWidth 16 := by
  apply BitVec.eq_of_getLsbD_eq
  intro k hk
  have hm : (0xFF : BitVec 16).getLsbD k = decide (k < 8) := by
    revert k; decide
  rw [BitVec.getLsbD_and, hm]
  by_cases h : k < 8 <;> simp [operandC16, operandC8, hk, h]

/-- Form C8 (R72). -/
theorem and_usedBits_of_byte {w : CommandWord} (h : opField w = 0x2) :
    w &&& usedBits w = commandWord 0x2 ((operandC8 w).setWidth 16) := by
  have hmask : usedBits w = commandWord 0xF 0xFF := by simp [usedBits, h, commandWord]
  rw [hmask, and_commandWord, h, operandC16_and_byte]

/-- Form C16 (R72). -/
theorem and_usedBits_of_word {w : CommandWord} (h : opField w = 0x3 ∨ opField w = 0x5) :
    w &&& usedBits w = commandWord (opField w) (operandC16 w) := by
  have hmask : usedBits w = commandWord 0xF (BitVec.allOnes 16) := by
    rcases h with h | h <;> simp [usedBits, h, commandWord]
  rw [hmask, and_commandWord, BitVec.and_allOnes]

/-- Form C0 (R72). -/
theorem and_usedBits_of_no_operand {w : CommandWord} (h2 : opField w ≠ 0x2)
    (h35 : ¬ (opField w = 0x3 ∨ opField w = 0x5)) : w &&& usedBits w = commandWord (opField w) 0 := by
  have hmask : usedBits w = commandWord 0xF 0#16 := by
    rw [usedBits, if_neg h2, if_neg h35]
    rfl
  rw [hmask, and_commandWord, BitVec.and_zero]
  rfl

theorem encode_decodeCommand (w : CommandWord) :
    encode (decodeCommand w) = .command (w &&& usedBits w) := by
  rcases decodeCommand_cases w with h | h | h | h | h | h | h | h | h | h | h | h | h | h | h | h <;>
    obtain ⟨hop, hdecode⟩ := h <;> rw [hdecode]
  -- `CRC.BYTE`
  case inr.inr.inl => rw [and_usedBits_of_byte hop]; rfl
  -- `CRC.APPEND`
  case inr.inr.inr.inl => rw [and_usedBits_of_word (.inl hop), hop]; rfl
  -- `ARQ.SEND`
  case inr.inr.inr.inr.inr.inl => rw [and_usedBits_of_word (.inr hop), hop]; rfl
  -- the commands without an operand
  all_goals
    rw [and_usedBits_of_no_operand (by simp [hop]) (by simp [hop]), hop]
    rfl

theorem encode_decodeResponse (d : Bit) : encode (decodeResponse d) = .response d := by
  rcases decodeResponse_cases d with ⟨hd, h⟩ | ⟨hd, h⟩ <;> rw [h, hd] <;> rfl

/-- Settles O2. -/
theorem encodeGivesCanonicalWord : Obligations.EncodeGivesCanonicalWord :=
  ⟨encode_decodeCommand, encode_decodeResponse⟩

/-! ### The row of the opcode table -/

theorem tableRow_mask_decodeCommand (w : CommandWord) : (tableRow (decodeCommand w)).2 = 0xF0000 := by
  rcases decodeCommand_cases w with h | h | h | h | h | h | h | h | h | h | h | h | h | h | h | h <;>
    obtain ⟨-, hdecode⟩ := h <;> rw [hdecode] <;> rfl

/-- Settles O3: the mask of a command's row keeps the opcode, and its match is the opcode. -/
theorem decodedRowMatchesWord : Obligations.DecodedRowMatchesWord := by
  intro pw
  cases pw with
  | command w =>
    have hword : w.toNat &&& 0xF0000 = (opField w).toNat * 2 ^ 16 := by
      rw [← commandWord_and_mask, commandWord_opField_operandC16]
    simpa only [PortWord.toNat, decode, tableRow_mask_decodeCommand, Machine.tableRow_decodeCommand] using hword
  | response d =>
    rcases decodeResponse_cases d with ⟨hd, h⟩ | ⟨hd, h⟩ <;> rw [decode, h, hd] <;> rfl

/-! ### The assembler's table words -/

theorem decodeTableWord_of_encode_command {i : Instr} {w : CommandWord} (h : encode i = .command w) :
    decodeTableWord 24 w.toNat = some i := by
  have hport : portWordOfTable 24 w.toNat = .ok (.command w) := by
    have hw : w.toNat < 2 ^ Config.hardware.cmdW := commandWord_lt w
    simp [portWordOfTable, hw]
  simp [decodeTableWord, decodeTable, hport, decode, decodeCommand_of_encode h]

theorem decodeTableWord_of_encode_response {i : Instr} {d : Bit} (h : encode i = .response d) :
    decodeTableWord 8 d.toNat = some i := by
  have hport : portWordOfTable 8 d.toNat = .ok (.response d) := by
    simp [portWordOfTable, d.isLt]
  simp [decodeTableWord, decodeTable, hport, decode, decodeResponse_of_encode h]

/-- Settles O5: each written word is the encoder's. -/
theorem writtenWordsDecode : Obligations.WrittenWordsDecode :=
  ⟨decodeTableWord_of_encode_command (w := 0x00000) rfl,
    decodeTableWord_of_encode_command (w := 0x10000) rfl,
    decodeTableWord_of_encode_command (w := 0x20031) rfl,
    decodeTableWord_of_encode_command (w := 0x329B1) rfl,
    decodeTableWord_of_encode_command (w := 0x40000) rfl,
    decodeTableWord_of_encode_command (w := 0x50001) rfl,
    decodeTableWord_of_encode_command (w := 0x60000) rfl,
    decodeTableWord_of_encode_command (w := 0xF0000) rfl,
    decodeTableWord_of_encode_response (d := 1) rfl,
    decodeTableWord_of_encode_response (d := 0) rfl⟩

end Sys2Proof

/-! What a cycle does not read of its inputs (spec/30_encoding.md R73, R80; spec/93_implementation_defined.md U6): the
answer without `rsp_valid`, the command without `cmd_valid`, everything in a reset step, and of a command's word the
operand bits that its form does not use. And the code of `fsm` on its port (R77). -/

namespace Sys2Proof.Machine

/-! ### What a cycle reads of its inputs -/

section
variable {i j : Inputs}

theorem runResponse_congr (hvalid : i.rspValid = j.rspValid)
    (hanswer : i.rspValid = true → decodeResponse i.rspDelivered = decodeResponse j.rspDelivered) (s : State) :
    runResponse i s = runResponse j s := by
  cases hv : i.rspValid
  · simp [runResponse, hv, ← hvalid]
  · simp [runResponse, hv, ← hvalid, hanswer hv]

theorem runCommand_congr (hvalid : i.cmdValid = j.cmdValid) {s : State}
    (hready : i.cmdValid = true → s.cmdReady i.cmd = s.cmdReady j.cmd)
    (hcommand : i.cmdValid = true → decodeCommand i.cmd = decodeCommand j.cmd) :
    runCommand (s.cmdReady i.cmd) i = runCommand (s.cmdReady j.cmd) j := by
  funext u
  cases hv : i.cmdValid
  · simp [runCommand, hv, ← hvalid]
  · simp [runCommand, hv, ← hvalid, hready hv, hcommand hv]

end

/-- Settles O35: a reset cycle reads nothing else, and outside reset each part reads its word only when it is
valid. -/
theorem unreadInputsIgnored : Obligations.UnreadInputsIgnored := by
  intro i j s hrst hread
  cases hr : i.rst
  · obtain ⟨hcmdValid, hrspValid, hcmd, hanswer⟩ := hread hr
    have hresponse : runResponse i s = runResponse j s :=
      runResponse_congr hrspValid (fun hv => by rw [hanswer hv]) s
    have hcommand : runCommand (s.cmdReady i.cmd) i = runCommand (s.cmdReady j.cmd) j :=
      runCommand_congr hcmdValid (fun hv => by rw [hcmd hv]) (fun hv => by rw [hcmd hv])
    simp only [cycle, ← hrst, hr, hresponse, hcommand]
  · simp only [cycle, ← hrst, hr, if_true]

/-! ### Unused operand bits -/

/-- The decoded command tells the opcode. -/
theorem opField_eq_of_decodeCommand_eq {w w' : CommandWord} (h : decodeCommand w = decodeCommand w') :
    opField w = opField w' := by
  have hrow := tableRow_decodeCommand w
  rw [h, tableRow_decodeCommand] at hrow
  exact BitVec.eq_of_toNat_eq (by omega)

theorem cmdReady_eq_of_decodeCommand_eq {w w' : CommandWord} (h : decodeCommand w = decodeCommand w')
    (s : State) : s.cmdReady w = s.cmdReady w' := by
  simp only [State.cmdReady, opField_eq_of_decodeCommand_eq h]

theorem cycle_eq_of_decodeCommand_eq {w w' : CommandWord} (h : decodeCommand w = decodeCommand w')
    (i : Inputs) (s : State) : cycle { i with cmd := w } s = cycle { i with cmd := w' } s := by
  have hcommand : runCommand (s.cmdReady w) { i with cmd := w } =
      runCommand (s.cmdReady w') { i with cmd := w' } :=
    runCommand_congr (i := { i with cmd := w }) (j := { i with cmd := w' }) rfl
      (fun _ => cmdReady_eq_of_decodeCommand_eq h s) (fun _ => h)
  simp only [cycle, runResponse, hcommand]

/-- Words with the same canonical word are the same command, since the canonical word is the encoding. -/
theorem decodeCommand_eq_of_and_usedBits_eq {w w' : CommandWord}
    (h : w &&& usedBits w = w' &&& usedBits w') : decodeCommand w = decodeCommand w' := by
  apply encode_injective
  rw [encode_decodeCommand, encode_decodeCommand, h]

/-- An encoded word is its own canonical word. -/
theorem and_usedBits_of_encode {e : Instr} {w : CommandWord} (h : encode e = .command w) :
    w &&& usedBits w = w := by
  have hcanonical := encode_decodeCommand w
  rw [decodeCommand_of_encode h, h] at hcanonical
  exact (PortWord.command.inj hcanonical).symm

theorem and_not_usedBits_of_encode {e : Instr} {w : CommandWord} (h : encode e = .command w) :
    w &&& ~~~(usedBits w) = 0 := by
  calc w &&& ~~~(usedBits w)
      = w &&& usedBits w &&& ~~~(usedBits w) := by rw [and_usedBits_of_encode h]
    _ = 0 := by rw [BitVec.and_assoc, BitVec.and_not_self]; exact BitVec.and_zero

/-- Settles O4: a cycle reads a command's word through its decoding, and unused bits have no part in that. -/
theorem unusedOperandBitsIgnored : Obligations.UnusedOperandBitsIgnored := by
  refine ⟨fun w w' h => ?_, fun _ _ => and_not_usedBits_of_encode, tableRow_mask_decodeCommand⟩
  have hdecode := decodeCommand_eq_of_and_usedBits_eq h
  exact ⟨hdecode, fun s i =>
    ⟨cmdReady_eq_of_decodeCommand_eq hdecode s, cycle_eq_of_decodeCommand_eq hdecode i s⟩⟩

/-! ### The code of `fsm` -/

theorem Fsm.code_ne_unused (x : Fsm) : x.code ≠ 0b11 := by
  cases x <;> decide

theorem txKind_eq_code_bit (s : State) : s.txKind = s.fsm.code.getLsbD 1 := by
  cases h : s.fsm <;> simp [State.txKind, Fsm.code, h]

theorem txValid_eq_code_bits (s : State) :
    s.txValid = (s.fsm.code.getLsbD 1 || s.fsm.code.getLsbD 0) := by
  cases h : s.fsm <;> simp [State.txValid, State.busy, Fsm.code, h]

/-- Settles O38. -/
theorem fsmCode : Obligations.FsmCode := fun s =>
  ⟨Fsm.code_inj _ .idle, Fsm.code_inj _ .awaitFrame, Fsm.code_inj _ .awaitAck, Fsm.code_ne_unused _,
    txKind_eq_code_bit s, txValid_eq_code_bits s⟩

end Sys2Proof.Machine

/-! The assembled CRC programs (spec/30_encoding.md R82). A word presented alone is one run of its instruction; the
expansion of `CRC.CALC` therefore leaves the CRC of its bytes in `crc`, and that of `CRC.CHECK` is the `CRC.CALC` of the
bytes and the value's two bytes, whose residue is zero when the value is the bytes' own CRC (spec/40_crc.md R111). -/

namespace Sys2Proof.Machine

/-! ### Runs of instructions -/

/-- A command presented alone has the effect of its instruction, which is none when it is not ready. -/
theorem cycle_ofCommand (w : CommandWord) (s : State) :
    cycle (Inputs.ofCommand w) s = exec (decodeCommand w) s := by
  cases hr : s.cmdReady w
  · rw [exec_of_not_ready hr]
    simp [cycle, runResponse, runCommand, Inputs.ofCommand, hr]
  · simp [cycle, runResponse, runCommand, Inputs.ofCommand, hr]

theorem cycle_ofResponse (d : Bit) (s : State) :
    cycle (Inputs.ofResponse d) s = exec (decodeResponse d) s := by
  obtain ⟨t, ht⟩ := exec_answers_next (decodeResponse d) s
  simp [cycle, runResponse, runCommand, Inputs.ofResponse, ht]

theorem cycle_encode_inputs (e : Instr) (s : State) : cycle (encode e).inputs s = exec e s := by
  cases h : encode e with
  | command w => rw [PortWord.inputs, cycle_ofCommand, decodeCommand_of_encode h]
  | response d => rw [PortWord.inputs, cycle_ofResponse, decodeResponse_of_encode h]

@[simp] theorem runInputs_nil (s : State) : runInputs [] s = .next s := rfl

theorem runInputs_cons_of_cycle {i : Inputs} {is : List Inputs} {s t : State}
    (h : cycle i (s.present is) = .next (t.present is)) : runInputs (i :: is) s = runInputs is t := by
  have hstep : core.step (s.present (i :: is)) = .next (t.present is) := h
  simp only [runInputs, List.length_cons, Host.Core.run, hstep]
  rfl

/-- Reading only the CRC register, `CRC.INIT` and `CRC.BYTE` do not see the samples of the coming cycles. -/
theorem runInputs_crcInit_cons (is : List Inputs) (s : State) :
    runInputs ((encode .crcInit).inputs :: is) s = runInputs is (loadCrc Config.hardware.crcInit s) :=
  runInputs_cons_of_cycle (cycle_encode_inputs _ _)

theorem runInputs_crcByte_cons (d : Byte) (is : List Inputs) (s : State) :
    runInputs ((encode (.crcByte d)).inputs :: is) s = runInputs is (foldByte Config.hardware d s) :=
  runInputs_cons_of_cycle (cycle_encode_inputs _ _)

theorem runInputs_feed (m : List Byte) (s : State) :
    runInputs (feed m) s = .next (loadCrc (byteSteps Config.hardware.crcPoly s.crc m) s) := by
  induction m generalizing s with
  | nil => rfl
  | cons d m ih =>
    rw [feed, List.map_cons, runInputs_crcByte_cons, ← feed, ih]
    rfl

/-! ### The residue of a message and its own CRC -/

/-- While bit 15 stays clear a bit step is a shift, so bits below it never meet the polynomial. -/
theorem bitSteps_eq_shiftLeft (poly : CrcWord) {n : Nat} {c : CrcWord} (h : c.toNat * 2 ^ n < 2 ^ 16) :
    bitSteps poly n c = c <<< n := by
  induction n generalizing c with
  | zero => simp
  | succ n ih =>
    have hpow : c.toNat * 2 ^ (n + 1) = c.toNat * 2 * 2 ^ n := by ring
    have hle : c.toNat * 2 ≤ c.toNat * 2 * 2 ^ n := Nat.le_mul_of_pos_right _ (by positivity)
    have hclear : c.getLsbD 15 = false := by
      rw [BitVec.getLsbD, Nat.testBit_lt_two_pow (by omega)]
    have hshift : (c <<< 1).toNat = c.toNat * 2 := by
      rw [BitVec.toNat_shiftLeft, Nat.shiftLeft_eq]
      omega
    rw [bitSteps_succ, bitStep, hclear, if_neg (by simp), ih (by rwa [hshift, ← hpow]), ← BitVec.shiftLeft_add, Nat.add_comm]

/-- Folding in the register's own high byte cancels it, and what is left moves up. -/
theorem byteStep_highByte (poly c : CrcWord) :
    byteStep poly c (highByte c) = (lowByte c).setWidth 16 <<< 8 := by
  have hcancel : c ^^^ ((highByte c).setWidth 16 <<< 8) = (lowByte c).setWidth 16 := by
    apply BitVec.eq_of_getLsbD_eq
    intro k hk
    by_cases h : k < 8
    · simp [highByte, lowByte, hk, h]
    · have hsum : 8 + (k - 8) = k := by omega
      have hlt : k - 8 < 8 := by omega
      simp [highByte, lowByte, hk, h, hsum, hlt]
  have hsmall : ((lowByte c).setWidth 16).toNat < 2 ^ 8 := by
    rw [BitVec.toNat_setWidth]
    have hlow := (lowByte c).isLt
    omega
  rw [byteStep, hcancel, bitSteps_eq_shiftLeft poly (by omega)]

theorem byteStep_shifted_self (poly : CrcWord) (d : Byte) :
    byteStep poly (d.setWidth 16 <<< 8) d = 0x0000 := by
  rw [byteStep, BitVec.xor_self, bitSteps_eq_shiftLeft poly (by simp)]
  rfl

/-- R111 at the register: feeding its own two bytes, the high one first, empties it. -/
theorem byteSteps_suffixBytes (poly c : CrcWord) : byteSteps poly c (suffixBytes c) = 0x0000 := by
  rw [suffixBytes, byteSteps_cons, byteSteps_cons, byteSteps_nil, byteStep_highByte, byteStep_shifted_self]

theorem crc16_append_crc16 (poly init : CrcWord) (m : List Byte) :
    crc16 poly init (append m (crc16 poly init m)) = 0x0000 := by
  rw [crc16, append, byteSteps_append]
  exact byteSteps_suffixBytes poly _

/-! ### The pseudo-instructions -/

theorem byteLines_eq_feed (bytes : List Nat) : byteLines bytes = feed (bytes.map (BitVec.ofNat 8)) := by
  rw [byteLines, feed, List.map_map]
  rfl

theorem wordLines_toNat (v : CrcWord) : wordLines v.toNat = feed (suffixBytes v) := by
  have hhigh : BitVec.ofNat 8 (v.toNat / 2 ^ 8 % 2 ^ 8) = highByte v := by
    apply BitVec.eq_of_toNat_eq
    simp [highByte, Nat.shiftRight_eq_div_pow]
  have hlow : BitVec.ofNat 8 (v.toNat % 2 ^ 8) = lowByte v := by
    apply BitVec.eq_of_toNat_eq
    simp [lowByte]
  simp only [wordLines, byteLines_eq_feed, List.map_cons, List.map_nil, hhigh, hlow, suffixBytes]

theorem feed_append (x y : List Byte) : feed (x ++ y) = feed x ++ feed y := List.map_append

/-- `CRC.INIT` and a message's bytes leave the message's CRC, and touch nothing but `crc`. -/
theorem runInputs_crcInit_feed (m : List Byte) (s : State) :
    runInputs ((encode .crcInit).inputs :: feed m) s =
      .next (loadCrc (crc16 Config.hardware.crcPoly Config.hardware.crcInit m) s) := by
  rw [runInputs_crcInit_cons, runInputs_feed]
  rfl

theorem runInputs_calcLines (bytes : List Nat) (s : State) :
    runInputs (calcLines bytes) s = .next (loadCrc
      (crc16 Config.hardware.crcPoly Config.hardware.crcInit (bytes.map (BitVec.ofNat 8))) s) := by
  rw [calcLines, byteLines_eq_feed, runInputs_crcInit_feed]

theorem runInputs_checkLines (bytes : List Nat) (v : CrcWord) (s : State) :
    runInputs (calcLines bytes ++ wordLines v.toNat) s = .next (loadCrc
      (crc16 Config.hardware.crcPoly Config.hardware.crcInit (append (bytes.map (BitVec.ofNat 8)) v)) s) := by
  rw [calcLines, byteLines_eq_feed, wordLines_toNat, List.cons_append, ← feed_append, runInputs_crcInit_feed,
    append]

theorem assemble_singleton {line : AsmLine} (h : line.wellFormed = true) :
    assemble [line] = some (lineSteps line) := by
  simp [assemble, h]

/-- Settles O56: the value that `CRC.CHECK` is given is the bytes' own CRC, so its residue is zero (R111). -/
theorem assembledCalcComputesCrc : Obligations.AssembledCalcComputesCrc := by
  intro bytes s hbytes
  have hword (v : CrcWord) : isWord16 v.toNat = true := decide_eq_true v.isLt
  have hcheck (v : CrcWord) : (AsmLine.crcCheck bytes v.toNat).wellFormed = true := by
    rw [AsmLine.wellFormed, hbytes, hword, Bool.and_self]
  refine ⟨_, _, _, _, assemble_singleton hbytes, runInputs_calcLines bytes s, rfl,
    assemble_singleton (hcheck _), runInputs_checkLines bytes _ s, ?_⟩
  exact (crcZero_eq_true_iff _).2 (crc16_append_crc16 _ _ _)

end Sys2Proof.Machine

/-! The CRC arithmetic (spec/40_crc.md sections 1 and 3). Every step is linear over XOR (R115). From that come the table
form of a byte step (R105), and the residue of a suffix (R111, R112): it is what two zero bytes make of the register XOR the
suffix, and at an odd polynomial, where a bit step loses nothing, that is zero only when the two are equal. -/

namespace Sys2Proof.Machine

/-! ### Linearity -/

theorem bitStep_xor (poly a b : CrcWord) : bitStep poly (a ^^^ b) = bitStep poly a ^^^ bitStep poly b := by
  rw [bitStep_eq_xor, bitStep_eq_xor, bitStep_eq_xor, BitVec.shiftLeft_xor_distrib, BitVec.getLsbD_xor]
  have hreduce : (if (a.getLsbD 15 ^^ b.getLsbD 15) then poly else 0) =
      (if a.getLsbD 15 then poly else 0) ^^^ (if b.getLsbD 15 then poly else 0) := by
    cases a.getLsbD 15 <;> cases b.getLsbD 15 <;> simp
  rw [hreduce]
  ac_rfl

theorem bitSteps_xor (poly : CrcWord) (n : Nat) (a b : CrcWord) :
    bitSteps poly n (a ^^^ b) = bitSteps poly n a ^^^ bitSteps poly n b := by
  induction n generalizing a b with
  | zero => rfl
  | succ n ih => rw [bitSteps_succ, bitSteps_succ, bitSteps_succ, bitStep_xor, ih]

/-- A byte step depends on the register with the byte folded in, and on nothing else (R115). -/
theorem byteStep_eq_zeroByte (poly c : CrcWord) (d : Byte) :
    byteStep poly c d = byteStep poly (c ^^^ (d.setWidth 16 <<< 8)) 0x00 := by
  simp [byteStep]

theorem byteStep_xor (poly a b : CrcWord) (d e : Byte) :
    byteStep poly (a ^^^ b) (d ^^^ e) = byteStep poly a d ^^^ byteStep poly b e := by
  rw [byteStep, byteStep, byteStep, ← bitSteps_xor, BitVec.setWidth_xor, BitVec.shiftLeft_xor_distrib]
  ac_rfl

theorem byteSteps_xor (poly a b : CrcWord) {x y : List Byte} (h : x.length = y.length) :
    byteSteps poly (a ^^^ b) (List.zipWith (· ^^^ ·) x y) = byteSteps poly a x ^^^ byteSteps poly b y := by
  induction x generalizing y a b with
  | nil =>
    obtain rfl := List.eq_nil_of_length_eq_zero h.symm
    rfl
  | cons d x ih =>
    cases y with
    | nil => cases h
    | cons e y =>
      rw [List.zipWith_cons_cons, byteSteps_cons, byteStep_xor, ih _ _ (Nat.succ.inj h), byteSteps_cons,
        byteSteps_cons]

/-- Settles O9: for three sequences the three initial values XOR to the initial value. -/
theorem crcIsLinear : Obligations.CrcIsLinear := by
  intro poly
  refine ⟨bitStep_xor poly, byteStep_xor poly, byteStep_eq_zeroByte poly, ?_, byteStep_shifted_self poly 0x00⟩
  intro init x y z hxy hyz
  have hlength : (List.zipWith (· ^^^ ·) x y).length = z.length := by
    rw [List.length_zipWith, hxy, Nat.min_self, hyz]
  have hinit : init = init ^^^ init ^^^ init := by
    rw [BitVec.xor_self, BitVec.zero_xor]
  calc crc16 poly init x ^^^ crc16 poly init y ^^^ crc16 poly init z
      = byteSteps poly (init ^^^ init) (List.zipWith (· ^^^ ·) x y) ^^^ byteSteps poly init z := by
        rw [byteSteps_xor poly init init hxy, crc16, crc16, crc16]
    _ = byteSteps poly (init ^^^ init ^^^ init)
          (List.zipWith (· ^^^ ·) (List.zipWith (· ^^^ ·) x y) z) := (byteSteps_xor poly _ _ hlength).symm
    _ = crc16 poly init (List.zipWith (· ^^^ ·) (List.zipWith (· ^^^ ·) x y) z) := by rw [← hinit, crc16]

/-! ### The bytes of a word -/

theorem highByte_eq_ofNat (v : CrcWord) : highByte v = BitVec.ofNat 8 (v.toNat / 2 ^ 8) := by
  apply BitVec.eq_of_toNat_eq
  simp [highByte, Nat.shiftRight_eq_div_pow]

theorem lowByte_eq_ofNat (v : CrcWord) : lowByte v = BitVec.ofNat 8 (v.toNat % 2 ^ 8) := by
  apply BitVec.eq_of_toNat_eq
  simp [lowByte]

theorem highByte_xor (a b : CrcWord) : highByte (a ^^^ b) = highByte a ^^^ highByte b := BitVec.extractLsb'_xor

theorem lowByte_xor (a b : CrcWord) : lowByte (a ^^^ b) = lowByte a ^^^ lowByte b := BitVec.extractLsb'_xor

theorem highByte_shifted (d : Byte) : highByte (d.setWidth 16 <<< 8) = d := by
  apply BitVec.eq_of_getLsbD_eq
  intro k hk
  have h : 8 + k < 16 := by omega
  simp [highByte, hk, h]

theorem lowByte_shifted (d : Byte) : lowByte (d.setWidth 16 <<< 8) = 0x00 := by
  apply BitVec.eq_of_getLsbD_eq
  intro k hk
  simp [lowByte, hk]

theorem and_lowMask (c : CrcWord) : c &&& 0x00FF = (lowByte c).setWidth 16 := by
  apply BitVec.eq_of_toNat_eq
  rw [BitVec.toNat_and, show (0x00FF : CrcWord).toNat = 2 ^ 8 - 1 from rfl, Nat.and_two_pow_sub_one_eq_mod,
    lowByte_eq_ofNat, BitVec.toNat_setWidth, BitVec.toNat_ofNat]
  omega

/-- A word is determined by its two bytes. -/
theorem eq_of_bytes {c c' : CrcWord} (hhigh : highByte c = highByte c') (hlow : lowByte c = lowByte c') :
    c = c' := by
  have hdiv := congrArg BitVec.toNat hhigh
  have hmod := congrArg BitVec.toNat hlow
  rw [highByte_eq_ofNat, highByte_eq_ofNat, BitVec.toNat_ofNat, BitVec.toNat_ofNat] at hdiv
  rw [lowByte_eq_ofNat, lowByte_eq_ofNat, BitVec.toNat_ofNat, BitVec.toNat_ofNat] at hmod
  have hc := c.isLt
  have hc' := c'.isLt
  apply BitVec.eq_of_toNat_eq
  omega

/-- Settles O10. -/
theorem appendAddsHighByteFirst : Obligations.AppendAddsHighByteFirst := by
  intro s v
  have hbytes : append s v = s ++ [BitVec.ofNat 8 (v.toNat / 2 ^ 8), BitVec.ofNat 8 (v.toNat % 2 ^ 8)] := by
    rw [append, suffixBytes, highByte_eq_ofNat, lowByte_eq_ofNat]
  exact ⟨hbytes, by rw [hbytes, List.length_append]; rfl⟩

/-! ### One bit -/

theorem getLsbD_15_eq (c : CrcWord) : c.getLsbD 15 = decide (2 ^ 15 ≤ c.toNat) := by
  rw [← BitVec.msb_eq_decide c, BitVec.msb_eq_getLsbD_last]

/-- At an odd polynomial the bit shifted out comes back at the bottom. -/
theorem getLsbD_zero_bitStep {poly : CrcWord} (hpoly : poly.getLsbD 0 = true) (c : CrcWord) :
    (bitStep poly c).getLsbD 0 = c.getLsbD 15 := by
  rw [bitStep_eq_xor]
  cases h : c.getLsbD 15 <;> simp [hpoly]

theorem toNat_bitStep (poly c : CrcWord) :
    (bitStep poly c).toNat =
      if 2 ^ 15 ≤ c.toNat then ((2 * c.toNat) ^^^ poly.toNat) % 2 ^ 16 else 2 * c.toNat % 2 ^ 16 := by
  have hshift : (c <<< 1).toNat = 2 * c.toNat % 2 ^ 16 := by
    rw [BitVec.toNat_shiftLeft, Nat.shiftLeft_eq, Nat.mul_comm, Nat.pow_one]
  rw [bitStep, getLsbD_15_eq]
  simp only [decide_eq_true_eq]
  split
  · rw [BitVec.toNat_xor, hshift, Nat.xor_mod_two_pow, Nat.mod_eq_of_lt poly.isLt]
  · exact hshift

/-- Settles O6. -/
theorem bitStepShiftsAndReduces : Obligations.BitStepShiftsAndReduces :=
  fun c => ⟨toNat_bitStep _ c, getLsbD_zero_bitStep rfl c⟩

/-! ### The residue of a suffix -/

/-- Settles O8. -/
theorem crcSelfCheck : Obligations.CrcSelfCheck := crc16_append_crc16

/-- The result's bit 0 says that nothing was shifted out, so the register was zero. -/
theorem bitStep_eq_zero_iff {poly : CrcWord} (hpoly : poly.getLsbD 0 = true) (c : CrcWord) :
    bitStep poly c = 0x0000 ↔ c = 0x0000 := by
  constructor
  · intro h
    have hclear : c.getLsbD 15 = false := by
      rw [← getLsbD_zero_bitStep hpoly, h]; rfl
    have hsmall : ¬ 2 ^ 15 ≤ c.toNat := by simpa only [getLsbD_15_eq, decide_eq_false_iff_not] using hclear
    have hzero : 2 * c.toNat % 2 ^ 16 = 0 := by
      have := congrArg BitVec.toNat h
      rwa [toNat_bitStep, if_neg hsmall] at this
    apply BitVec.eq_of_toNat_eq
    show c.toNat = 0
    omega
  · rintro rfl
    rfl

theorem bitSteps_eq_zero_iff {poly : CrcWord} (hpoly : poly.getLsbD 0 = true) (n : Nat) (c : CrcWord) :
    bitSteps poly n c = 0x0000 ↔ c = 0x0000 := by
  induction n generalizing c with
  | zero => rfl
  | succ n ih => rw [bitSteps_succ, ih, bitStep_eq_zero_iff hpoly]

theorem byteStep_zeroByte_eq_zero_iff {poly : CrcWord} (hpoly : poly.getLsbD 0 = true) (c : CrcWord) :
    byteStep poly c 0x00 = 0x0000 ↔ c = 0x0000 := by
  rw [byteStep, bitSteps_eq_zero_iff hpoly]
  simp

/-- The suffix `v` is `v`'s own, which leaves zero, and two zero bytes fed from what `c` differs from `v` by. -/
theorem byteSteps_suffixBytes_eq (poly c v : CrcWord) :
    byteSteps poly c (suffixBytes v) = byteSteps poly (c ^^^ v) [0x00, 0x00] := by
  calc byteSteps poly c (suffixBytes v)
      = byteSteps poly (c ^^^ v ^^^ v) (List.zipWith (· ^^^ ·) [0x00, 0x00] (suffixBytes v)) := by
        simp [suffixBytes]
    _ = byteSteps poly (c ^^^ v) [0x00, 0x00] ^^^ byteSteps poly v (suffixBytes v) := byteSteps_xor _ _ _ rfl
    _ = byteSteps poly (c ^^^ v) [0x00, 0x00] := by simp [byteSteps_suffixBytes]

theorem byteSteps_suffixBytes_eq_zero_iff {poly : CrcWord} (hpoly : poly.getLsbD 0 = true) (c v : CrcWord) :
    byteSteps poly c (suffixBytes v) = 0x0000 ↔ v = c := by
  rw [byteSteps_suffixBytes_eq, byteSteps_cons, byteSteps_cons, byteSteps_nil,
    byteStep_zeroByte_eq_zero_iff hpoly, byteStep_zeroByte_eq_zero_iff hpoly]
  exact BitVec.xor_eq_zero_iff.trans eq_comm

/-- Settles O11: `0x1021` is odd. -/
theorem residueZeroExactlyForOwnCrc : Obligations.ResidueZeroExactlyForOwnCrc := by
  intro init s v
  rw [crc16, append, byteSteps_append]
  exact byteSteps_suffixBytes_eq_zero_iff rfl _ v

/-! ### The table form and the XOR equations -/

/-- R105: feeding `d` is feeding the high byte, which moves the low byte up, and what `d` differs from it by. -/
theorem byteStep_eq_table (poly c : CrcWord) (d : Byte) :
    byteStep poly c d = ((lowByte c).setWidth 16 <<< 8) ^^^ crcTable poly (highByte c ^^^ d) := by
  have hbyte : d = highByte c ^^^ (highByte c ^^^ d) := by
    rw [← BitVec.xor_assoc, BitVec.xor_self, BitVec.zero_xor]
  calc byteStep poly c d
      = byteStep poly (c ^^^ 0#16) (highByte c ^^^ (highByte c ^^^ d)) := by rw [BitVec.xor_zero, ← hbyte]
    _ = byteStep poly c (highByte c) ^^^ crcTable poly (highByte c ^^^ d) := byteStep_xor _ _ _ _ _
    _ = ((lowByte c).setWidth 16 <<< 8) ^^^ crcTable poly (highByte c ^^^ d) := by rw [byteStep_highByte]

/-- The equations at register zero are the 256 entries of the table. -/
theorem byteStepXor_zero : ∀ t : Byte, byteStepXor 0x0000 t = crcTable Config.hardware.crcPoly t := by decide

theorem byteStepXor_eq_table (c : CrcWord) (d : Byte) :
    byteStepXor c d = ((lowByte c).setWidth 16 <<< 8) ^^^ byteStepXor 0x0000 (highByte c ^^^ d) := by
  have hzero : highByte 0x0000 ^^^ (highByte c ^^^ d) = highByte c ^^^ d := BitVec.zero_xor
  apply BitVec.eq_of_getLsbD_eq
  intro k hk
  rw [BitVec.getLsbD_xor]
  simp only [byteStepXor, hzero, BitVec.getLsbD_ofBoolListBE]
  generalize highByte c ^^^ d = t
  interval_cases k <;> simp [lowByte]

/-- Settles O7: the XOR equations split as the table form does, and agree with the table at every byte. -/
theorem byteStepMeetsEquations : Obligations.ByteStepMeetsEquations := by
  refine ⟨fun c d => ?_, fun c d => ?_, by decide, by decide⟩
  · rw [byteStepXor_eq_table, byteStepXor_zero, byteStep_eq_table]
  · rw [and_lowMask, byteStep_eq_table]

/-! ### Fixed points of a zero byte -/

/-- A fixed point is the table entry of its high byte, with its low byte moved up and added to it. -/
theorem bytes_of_byteStep_eq_self {poly c : CrcWord} (h : byteStep poly c 0x00 = c) :
    lowByte c = lowByte (crcTable poly (highByte c)) ∧
    highByte (crcTable poly (highByte c)) ^^^ lowByte (crcTable poly (highByte c)) = highByte c := by
  have htable : ((lowByte c).setWidth 16 <<< 8) ^^^ crcTable poly (highByte c) = c := by
    simpa [byteStep_eq_table] using h
  have hhigh : lowByte c ^^^ highByte (crcTable poly (highByte c)) = highByte c := by
    rw [← highByte_shifted (lowByte c), ← highByte_xor, htable]
  have hlow : lowByte (crcTable poly (highByte c)) = lowByte c := by
    simpa [lowByte_xor, lowByte_shifted] using congrArg lowByte htable
  exact ⟨hlow.symm, by rw [hlow, BitVec.xor_comm, hhigh]⟩

/-- Of the 256 table entries only two have their own index as the XOR of their bytes. -/
theorem index_of_bytes_xor_eq : ∀ t : Byte,
    highByte (crcTable Config.hardware.crcPoly t) ^^^ lowByte (crcTable Config.hardware.crcPoly t) = t →
      t = 0x00 ∨ t = 0xF0 := by decide

/-- Settles O12: a fixed point's high byte determines it, and the table leaves two high bytes. -/
theorem zeroByteFixedPoints : Obligations.ZeroByteFixedPoints := by
  intro c
  constructor
  · intro h
    obtain ⟨hlow, hfixed⟩ := bytes_of_byteStep_eq_self h
    rcases index_of_bytes_xor_eq _ hfixed with hhigh | hhigh <;> rw [hhigh] at hlow
    · exact .inl (eq_of_bytes hhigh hlow)
    · exact .inr (eq_of_bytes hhigh hlow)
  · rintro (rfl | rfl) <;> decide

end Sys2Proof.Machine

/-! The CRC commands and their runs (spec/40_crc.md section 2). Each command writes its one register. Over a run without
reset and `CRC.INIT` the register is fed the bytes of the `CRC.BYTE` commands in order, whatever stands between them, so it
stays the CRC of the sequence so far (R106). -/

namespace Sys2Proof.Machine

/-! ### The commands -/

theorem operandC8_eq_ofNat (w : CommandWord) : operandC8 w = BitVec.ofNat 8 (w.toNat % 2 ^ 8) := by
  apply BitVec.eq_of_toNat_eq
  simp [operandC8]

theorem operandC16_eq_ofNat (w : CommandWord) : operandC16 w = BitVec.ofNat 16 (w.toNat % 2 ^ 16) := by
  apply BitVec.eq_of_toNat_eq
  simp [operandC16]

/-- Every command but the two ARQ commands is always ready (spec/10_state.md R33; spec/40_crc.md R113). -/
theorem cmdReady_of_opField {w : CommandWord} {op : BitVec 4} (hw : opField w = op) (hop : op ≠ 0x4 ∧ op ≠ 0x5)
    (s : State) : s.cmdReady w = true := by
  rw [← Bool.not_eq_false, cmdReady_eq_false_iff, hw]
  exact fun ⟨_, harq⟩ => harq.elim hop.1 hop.2

/-- Settles O15: one write, of the value that the register has after reset too. -/
theorem crcInitLoadsInitialValue : Obligations.CrcInitLoadsInitialValue := by
  refine ⟨fun s => ⟨rfl, rfl, rfl, fun w hw => ⟨?_, ?_⟩⟩, rfl⟩
  · simp [decodeCommand, hw]
  · exact cmdReady_of_opField hw (by decide) s

/-- Settles O16: the byte step of the command is the XOR equations (R105). -/
theorem crcByteFoldsOneByte : Obligations.CrcByteFoldsOneByte := by
  intro d s
  have hxor := byteStepMeetsEquations.1 s.crc d
  refine ⟨?_, ?_, fun w hw => ⟨?_, ?_⟩⟩
  · rw [exec_crcByte, foldByte, hxor]; rfl
  · rw [hxor]; exact crcZero_eq_true_iff _
  · rw [← operandC8_eq_ofNat]; simp [decodeCommand, hw]
  · exact cmdReady_of_opField hw (by decide) s

/-- Settles O17: the suffix is the two bytes of the value written. -/
theorem crcAppendLatchesSuffix : Obligations.CrcAppendLatchesSuffix := by
  intro v s
  refine ⟨rfl, fun m t h => ?_, fun w hw => ⟨?_, ?_⟩⟩
  · cases h; rfl
  · rw [← operandC16_eq_ofNat]; simp [decodeCommand, hw]
  · exact cmdReady_of_opField hw (by decide) s

/-! ### A run, cycle by cycle -/

theorem runResponse_inputPart {i : Inputs} {s t : State} (h : runResponse i s = .next t) :
    t.inputPart = s.inputPart := by
  unfold runResponse at h
  split at h
  · exact exec_inputPart h
  · cases h; rfl

theorem runCommand_inputPart {ready : Bool} {i : Inputs} {s t : State}
    (h : runCommand ready i s = .next t) : t.inputPart = s.inputPart := by
  unfold runCommand at h
  split at h
  · exact exec_inputPart h
  · cases h; rfl

theorem cycle_inputPart {i : Inputs} {s t : State} (h : cycle i s = .next t) :
    t.inputPart = s.inputPart := by
  cases hr : i.rst
  · obtain ⟨u, hu, ht⟩ := exists_response_command_of_cycle hr h
    rw [runCommand_inputPart ht, runResponse_inputPart hu]
  · rw [eq_resetBlock_of_cycle hr h]; rfl

/-- A state with the samples `is` listed before those of `s` is some state with `s`'s, presented `is`. -/
theorem exists_eq_present {is : List Inputs} {s t : State} (h : t.inputPart = (s.present is).inputPart) :
    ∃ u : State, u.inputPart = s.inputPart ∧ t = u.present is :=
  ⟨{ t with inputs := s.inputs, draws := s.draws }, rfl, State.eq_of_parts rfl rfl rfl h⟩

/-- The first cycle of a run, with the samples of the later cycles kept listed for them. -/
theorem exists_cycle_runInputs (i : Inputs) (is : List Inputs) (s : State) :
    ∃ u : State, cycle i (s.present is) = .next (u.present is) ∧ u.inputPart = s.inputPart ∧
      runInputs (i :: is) s = runInputs is u := by
  obtain ⟨t, ht⟩ := cycle_answers_next i (s.present is)
  obtain ⟨u, hu, rfl⟩ := exists_eq_present (cycle_inputPart ht)
  exact ⟨u, ht, hu, runInputs_cons_of_cycle ht⟩

/-! ### The streaming law -/

theorem bytesPresented_cons (i : Inputs) (is : List Inputs) :
    bytesPresented (i :: is) = bytesPresented [i] ++ bytesPresented is := by
  simp only [bytesPresented]
  split <;> rfl

/-- Neither reset nor `CRC.INIT`: the cycle feeds the register its `CRC.BYTE`, if it presents one. -/
theorem crcUnitCycle_feeds {i : Inputs} (hr : i.rst = false) (hinit : i.cmdValid = true → opField i.cmd ≠ 0x1)
    (c : CrcWord × CrcWord) :
    (crcUnitCycle i c).1 = byteSteps Config.hardware.crcPoly c.1 (bytesPresented [i]) := by
  cases hv : i.cmdValid
  · simp [crcUnitCycle, bytesPresented, hr, hv]
  · have hop := hinit hv
    rcases decodeCommand_cases i.cmd with h | h | h | h | h | h | h | h | h | h | h | h | h | h | h | h <;>
      obtain ⟨ho, hdecode⟩ := h
    case inr.inl => exact absurd ho hop
    all_goals simp [crcUnitCycle, bytesPresented, hr, hv, ho, hdecode, crcUnit]

theorem runInputs_feeds (is : List Inputs) (s : State) (hreset : noReset is = true)
    (hinit : ∀ i ∈ is, i.cmdValid = true → opField i.cmd ≠ 0x1) :
    ∃ t : State, runInputs is s = .next t ∧
      t.crc = byteSteps Config.hardware.crcPoly s.crc (bytesPresented is) := by
  induction is generalizing s with
  | nil => exact ⟨s, rfl, rfl⟩
  | cons i is ih =>
    obtain ⟨hi, his⟩ := List.forall_mem_cons.1 hinit
    obtain ⟨hr, hrs⟩ : i.rst = false ∧ noReset is = true := by simpa [noReset] using hreset
    obtain ⟨u, hcycle, -, hrun⟩ := exists_cycle_runInputs i is s
    obtain ⟨t, ht, hcrc⟩ := ih u hrs his
    have hu : u.crc = byteSteps Config.hardware.crcPoly s.crc (bytesPresented [i]) :=
      (congrArg Prod.fst (cycle_crcPart hcycle)).trans (crcUnitCycle_feeds hr hi _)
    exact ⟨t, hrun.trans ht, by rw [hcrc, hu, bytesPresented_cons i is, byteSteps_append]⟩

theorem bytesPresented_feed (u : List Byte) : bytesPresented (feed u) = u := by
  induction u with
  | nil => rfl
  | cons d u ih =>
    rw [feed, List.map_cons, bytesPresented_cons, ← feed, ih]
    simp [bytesPresented, encode, PortWord.inputs, Inputs.ofCommand]

/-- Settles O54: the run feeds its bytes to a register that holds the CRC of the sequence before them. -/
theorem streamingLaw : Obligations.StreamingLaw := by
  refine ⟨fun is s m hreset hinit hs => ?_, bytesPresented_feed, rfl, fun s t h => by cases h; rfl⟩
  obtain ⟨t, ht, hcrc⟩ := runInputs_feeds is s hreset hinit
  exact ⟨t, ht, by rw [hcrc, hs, crc16, crc16, byteSteps_append]⟩

/-- Settles O55: the run leaves the CRC of the message with its suffix, which is zero for its own CRC only. -/
theorem checkedMessageLeavesZero : Obligations.CheckedMessageLeavesZero := fun m v s =>
  ⟨_, runInputs_crcInit_feed (append m v) s,
    (crcZero_eq_true_iff _).trans (residueZeroExactlyForOwnCrc _ m v), rfl⟩

end Sys2Proof.Machine

/-! The channel port (spec/41_channel.md R133 to R139): the unit that the arbiter grants in each state, what a delivered
and a lost answer make of the state, and that a cycle without an effective answer leaves the granted unit alone. The
response's part of a cycle is then one of three transitions, and the command's part writes the ARQ unit only when
idle. -/

namespace Sys2Proof.Machine

/-! ### The granted unit -/

section
variable {s : State}

theorem channelPort_of_idle (h : s.fsm = .idle) :
    s.grant = none ∧ s.txValid = false ∧ s.txKind = false ∧ s.txTag = 0x0000 := by
  simp [State.grant, State.txValid, State.busy, State.txKind, State.txTag, h]

theorem channelPort_of_awaitFrame (h : s.fsm = .awaitFrame) :
    s.grant = some ⟨.frame, s.seq, s.tag⟩ ∧ s.txValid = true ∧ s.txKind = false ∧ s.txTag = s.tag := by
  simp [State.grant, State.txValid, State.busy, State.txKind, State.txTag, h]

theorem channelPort_of_awaitAck (h : s.fsm = .awaitAck) :
    s.grant = some ⟨.ack, s.seq, 0x0000⟩ ∧ s.txValid = true ∧ s.txKind = true ∧ s.txTag = 0x0000 := by
  simp [State.grant, State.txValid, State.busy, State.txKind, State.txTag, h]

/-- The port is idle exactly between messages. -/
theorem grant_eq_none_iff : s.grant = none ↔ s.fsm = .idle := by
  cases h : s.fsm <;> simp [State.grant, h]

end

/-! ### The answer's part of a cycle -/

section
variable {i : Inputs} {s t : State}

/-- A response is routed to nobody when nothing is outstanding (R135, R139). -/
theorem exec_decodeResponse_of_idle (h : s.fsm = .idle) (d : Bit) : exec (decodeResponse d) s = .next s := by
  rcases decodeResponse_cases d with ⟨-, hd⟩ | ⟨-, hd⟩ <;> rw [hd]
  · rw [exec_rspDelivered, respondDelivered, h]
  · rw [exec_rspLost, respondLost, h]

theorem runResponse_of_idle (h : s.fsm = .idle) (i : Inputs) : runResponse i s = .next s := by
  unfold runResponse
  split
  · exact exec_decodeResponse_of_idle h _
  · rfl

/-- Outside reset an answer has effect exactly when it is given and something is outstanding. -/
theorem answered_eq_false_iff (hr : i.rst = false) :
    s.answered i = false ↔ i.rspValid = false ∨ s.fsm = .idle := by
  rw [State.answered, hr, Bool.not_false, Bool.true_and, Bool.and_eq_false_iff, busy_eq_false_iff]

theorem runResponse_of_not_answered (hr : i.rst = false) (h : s.answered i = false) :
    runResponse i s = .next s := by
  rcases (answered_eq_false_iff hr).1 h with hv | hidle
  · simp [runResponse, hv]
  · exact runResponse_of_idle hidle i

/-- The acknowledgment is reached from the frame alone, by its delivery (R134). -/
theorem exec_decodeResponse_enters_awaitAck {d : Bit} (h : exec (decodeResponse d) s = .next t)
    (hs : s.fsm ≠ .awaitAck) (ht : t.fsm = .awaitAck) : s.fsm = .awaitFrame ∧ d = 1 := by
  rcases decodeResponse_cases d with ⟨hd, hdecode⟩ | ⟨-, hdecode⟩ <;> rw [hdecode] at h <;> cases h
  · rcases respondDelivered_cases s with ⟨-, hf⟩ | ⟨hframe, -⟩ | ⟨hack, -⟩
    · rw [hf] at ht; exact absurd ht hs
    · exact ⟨hframe, hd⟩
    · exact absurd hack hs
  · rcases respondLost_cases Config.hardware s with ⟨-, hf⟩ | ⟨-, hf⟩ <;> rw [hf] at ht
    · exact absurd ht hs
    · simp at ht

theorem runResponse_enters_awaitAck (h : runResponse i s = .next t) (hs : s.fsm ≠ .awaitAck)
    (ht : t.fsm = .awaitAck) : s.fsm = .awaitFrame ∧ i.rspValid = true ∧ i.rspDelivered = 1 := by
  unfold runResponse at h
  split at h
  next hv =>
    obtain ⟨hframe, hd⟩ := exec_decodeResponse_enters_awaitAck h hs ht
    exact ⟨hframe, hv, hd⟩
  next => cases h; exact absurd ht hs

end

/-! ### The command's part of a cycle -/

section
variable {i : Inputs} {s u t : State}

/-- What a command makes of the ARQ unit: nothing, unless it is an ARQ command that finds the block idle. -/
theorem exec_decodeCommand_arqPart_cases {w : CommandWord} (h : exec (decodeCommand w) s = .next t) :
    (s.fsm = .idle ∧ opField w = 0x4 ∧ t = freshProtocol s) ∨
    (s.fsm = .idle ∧ opField w = 0x5 ∧ t = beginMessage (operandC16 w) s) ∨ t.arqPart = s.arqPart := by
  rcases decodeCommand_cases w with hw | hw | hw | hw | ⟨h4, hdecode⟩ | ⟨h5, hdecode⟩ | hw | hw | hw | hw | hw |
    hw | hw | hw | hw | hw
  case inr.inr.inr.inr.inl =>
    rw [hdecode] at h
    cases h
    rcases holdWhileBusy_cases freshProtocol s with ⟨hidle, hf⟩ | ⟨-, hf⟩
    · exact .inl ⟨hidle, h4, hf⟩
    · exact .inr (.inr (congrArg State.arqPart hf))
  case inr.inr.inr.inr.inr.inl =>
    rw [hdecode] at h
    cases h
    rcases holdWhileBusy_cases (beginMessage (operandC16 w)) s with ⟨hidle, hf⟩ | ⟨-, hf⟩
    · exact .inr (.inl ⟨hidle, h5, hf⟩)
    · exact .inr (.inr (congrArg State.arqPart hf))
  all_goals
    rw [hw.2] at h
    cases h
    exact .inr (.inr rfl)

/-- No command puts the acknowledgment on the port. -/
theorem runCommand_enters_awaitAck {ready : Bool} (h : runCommand ready i u = .next t)
    (ht : t.fsm = .awaitAck) : u.fsm = .awaitAck := by
  unfold runCommand at h
  split at h
  · rcases exec_decodeCommand_arqPart_cases h with ⟨-, -, rfl⟩ | ⟨-, -, rfl⟩ | harq
    · exact ht
    · cases ht
    · obtain ⟨-, -, hfsm, -, -⟩ := arqPart_eq_iff.1 harq
      exact hfsm.symm.trans ht
  · cases h; exact ht

/-- In a step that begins busy no command writes the ARQ unit, whatever the answer made of it (spec/42_arq.md R163). -/
theorem runCommand_arqPart_of_busy (hb : s.fsm ≠ .idle) (h : runCommand (s.cmdReady i.cmd) i u = .next t) :
    t.arqPart = u.arqPart := by
  unfold runCommand at h
  split at h
  next hrun =>
    obtain ⟨-, hready⟩ := Bool.and_eq_true_iff.1 hrun
    have harq : ¬ (opField i.cmd = 0x4 ∨ opField i.cmd = 0x5) := fun harq =>
      absurd ((cmdReady_eq_false_iff s i.cmd).2 ⟨hb, harq⟩) (by simp [hready])
    rcases exec_decodeCommand_arqPart_cases h with ⟨-, h4, -⟩ | ⟨-, h5, -⟩ | hkeep
    · exact absurd (.inl h4) harq
    · exact absurd (.inr h5) harq
    · exact hkeep
  next => cases h; rfl

/-- A busy step without an effective answer leaves the ARQ unit as it is (R133). -/
theorem cycle_arqPart_of_not_answered (hr : i.rst = false) (hb : s.fsm ≠ .idle) (ha : s.answered i = false)
    (h : cycle i s = .next t) : t.arqPart = s.arqPart := by
  obtain ⟨u, hu, ht⟩ := exists_response_command_of_cycle hr h
  cases (runResponse_of_not_answered hr ha).symm.trans hu
  exact runCommand_arqPart_of_busy hb ht

theorem cycle_enters_awaitAck (h : cycle i s = .next t) (hs : s.fsm ≠ .awaitAck) (ht : t.fsm = .awaitAck) :
    s.fsm = .awaitFrame ∧ i.rst = false ∧ i.rspValid = true ∧ i.rspDelivered = 1 := by
  cases hr : i.rst
  · obtain ⟨u, hu, hcmd⟩ := exists_response_command_of_cycle hr h
    obtain ⟨hframe, hanswer⟩ := runResponse_enters_awaitAck hu hs (runCommand_enters_awaitAck hcmd ht)
    exact ⟨hframe, rfl, hanswer⟩
  · simp [eq_resetBlock_of_cycle hr h] at ht

end

/-- Settles O37: R134's table row by row, and the acknowledgment's only way in (`cycle_enters_awaitAck`). -/
theorem arbiterGrantsByFsm : Obligations.ArbiterGrantsByFsm := fun _ =>
  ⟨channelPort_of_idle, channelPort_of_awaitFrame, channelPort_of_awaitAck, rfl, fun _ _ => cycle_enters_awaitAck⟩

/-- Settles O48: the grant is read off the ARQ unit, which such a cycle leaves as it is. -/
theorem unitStableUntilAnswered : Obligations.UnitStableUntilAnswered := by
  intro i s t hr hb ha h
  have hbusy : s.fsm ≠ .idle := (busy_eq_true_iff s).1 hb
  exact ⟨grant_congr (cycle_arqPart_of_not_answered hr hbusy ha h), mt grant_eq_none_iff.1 hbusy⟩

/-! ### The two responses -/

section
variable {s : State}

theorem bit_xor_one : ∀ b : Bit, b ^^^ 1 = b + 1 := by decide

theorem exec_rspDelivered_awaitFrame (h : s.fsm = .awaitFrame) :
    exec .rspDelivered s = .next { s with fsm := .awaitAck } := by
  rw [exec_rspDelivered, respondDelivered, h]
  rfl

theorem exec_rspDelivered_awaitAck (h : s.fsm = .awaitAck) :
    exec .rspDelivered s = .next { s with seq := s.seq + 1, result := .delivered, fsm := .idle } := by
  rw [exec_rspDelivered, respondDelivered, h, ← bit_xor_one]
  rfl

/-- The counter of full width goes one up and stops at its largest value (spec/42_arq.md R158, R162). -/
theorem satIncr_full_width (x : AttemptCount) :
    satIncr 32 x = if x = 0xFFFFFFFF then 0xFFFFFFFF else x + 1 := by
  apply BitVec.eq_of_toNat_eq
  rw [satIncr_toNat 32 le_rfl]
  split
  next h => subst h; rfl
  next h => bv_omega

theorem exec_rspLost_busy (h : s.fsm ≠ .idle) : exec .rspLost s = .next
    { s with attempt := if s.attempt = 0xFFFFFFFF then 0xFFFFFFFF else s.attempt + 1, fsm := .awaitFrame } := by
  rcases respondLost_cases Config.hardware s with ⟨hidle, -⟩ | ⟨-, hf⟩
  · exact absurd hidle h
  · rw [exec_rspLost, hf, retry_hardware, ← satIncr_full_width]
    rfl

end

/-- Settles O21: one transition per state; an effective answer makes the step a busy one, in which no ARQ command is
accepted. -/
theorem rspDeliveredTransitions : Obligations.RspDeliveredTransitions := by
  refine fun s => ⟨exec_rspDelivered_awaitFrame, exec_rspDelivered_awaitAck,
    fun h => exec_decodeResponse_of_idle h 1, fun i hr hv hd => ⟨?_, ?_, fun hb ha => ?_⟩⟩
  · simp [done_eq_true_iff, hr, hv, hd]
  · simp [State.loss, hd]
  · exact opField_of_accepts_busy ((busy_eq_true_iff s).2 hb) ha

/-- Settles O22: the retry leaves the bit and the handle alone, so the frame then granted is the same one. -/
theorem rspLostRetries : Obligations.RspLostRetries := by
  refine fun s => ⟨fun hb => ⟨exec_rspLost_busy hb, fun t h => ?_⟩,
    fun h => exec_decodeResponse_of_idle h 0, fun i hr hv hd => ⟨?_, ?_⟩⟩
  · cases (exec_rspLost_busy hb).symm.trans h
    rfl
  · simp [loss_eq_true_iff, hr, hv, hd]
  · simp [State.done, hd]

/-- Settles O23: with nothing outstanding the answer's part of a cycle is no change, and the command's part does not
read the answer. -/
theorem strayResponseIgnored : Obligations.StrayResponseIgnored := by
  refine fun s d h => ⟨exec_decodeResponse_of_idle h d, fun i => ⟨?_, ?_, ?_⟩⟩
  · simp [State.done, h]
  · simp [State.loss, (busy_eq_false_iff s).2 h]
  · simp only [cycle, runResponse_of_idle h, andThen_next]
    rfl

end Sys2Proof.Machine

/-! The machine's cycle and R236's one-step function are the same (spec/70_reset_and_hazards.md R236), so a run of the
machine is the fold of that function, and a step's events and its next state can be read off one function. -/

namespace Sys2Proof.Machine

/-! ### A cycle is the one-step function -/

section
variable {i : Inputs} {s u : State} {w : CommandWord}

theorem runResponse_eq_blockResponse (i : Inputs) (s : State) :
    runResponse i s = .next (blockResponse Config.hardware s i) := by
  rcases blockResponse_cases Config.hardware s i with ⟨hnone, h⟩ | ⟨hv, hd, hf, h⟩ | ⟨hv, hd, hf, h⟩ |
    ⟨hv, hd, hb, h⟩ <;> rw [h]
  · rcases hnone with hv | hidle
    · simp [runResponse, hv]
    · exact runResponse_of_idle hidle i
  · simp [runResponse, hv, hd, respondDelivered, hf]
  · simp [runResponse, hv, hd, respondDelivered, hf]
  · rcases respondLost_cases Config.hardware s with ⟨hidle, -⟩ | ⟨-, hlost⟩
    · exact absurd hidle hb
    · simp [runResponse, hv, hd, hlost]

/-- The two ARQ commands are written without readiness in part (b) of R236, so they must find the block idle. What the
command reads of the state before the step is `crc` alone. -/
theorem exec_decodeCommand_eq_blockCommand (hcrc : u.crc = s.crc)
    (hready : opField w = 0x4 ∨ opField w = 0x5 → u.fsm = .idle) :
    exec (decodeCommand w) u = .next (blockCommand Config.hardware s w u) := by
  rcases decodeCommand_cases w with h | h | h | h | h | h | h | h | h | h | h | h | h | h | h | h <;>
    obtain ⟨hop, hdecode⟩ := h <;> rw [hdecode]
  case inr.inr.inl => simp [blockCommand, hop, foldByte, loadCrc, hcrc]
  case inr.inr.inr.inr.inl =>
    have hbusy := (busy_eq_false_iff u).2 (hready (.inl hop))
    simp [blockCommand, hop, holdWhileBusy, hbusy, freshProtocol]
  case inr.inr.inr.inr.inr.inl =>
    have hbusy := (busy_eq_false_iff u).2 (hready (.inr hop))
    simp [blockCommand, hop, holdWhileBusy, hbusy, beginMessage]
  all_goals simp [blockCommand, hop, loadCrc, loadSuffix, markIllegal]

theorem blockResponse_crcPart (p : Config.Params) (s : State) (i : Inputs) :
    (blockResponse p s i).crcPart = s.crcPart := by
  rcases blockResponse_cases p s i with ⟨-, h⟩ | ⟨-, -, -, h⟩ | ⟨-, -, -, h⟩ | ⟨-, -, -, h⟩ <;> rw [h]
  · rfl
  · rfl
  · exact retry_crcPart p s

/-- An accepted ARQ command finds the block idle (spec/42_arq.md R163). -/
theorem idle_of_accepts_arqCommand (ha : s.accepts i = true) (hop : opField i.cmd = 0x4 ∨ opField i.cmd = 0x5) :
    s.fsm = .idle := by
  by_contra hb
  obtain ⟨h4, h5⟩ := opField_of_accepts_busy ((busy_eq_true_iff s).2 hb) ha
  exact hop.elim h4 h5

theorem cycle_eq_blockStep (i : Inputs) (s : State) :
    cycle i s = .next (blockStep Config.hardware s i) := by
  rcases blockStep_cases Config.hardware s i with ⟨hr, h⟩ | ⟨hr, h⟩ <;> rw [h]
  · simp [cycle, hr]
  · have haccepts : s.accepts i = (i.cmdValid && s.cmdReady i.cmd) := by simp [State.accepts, hr]
    rw [cycle, hr, runResponse_eq_blockResponse]
    simp only [Bool.false_eq_true, if_false, andThen_next, runCommand, ← haccepts]
    split
    next ha =>
      refine exec_decodeCommand_eq_blockCommand (congrArg Prod.fst (blockResponse_crcPart _ s i)) fun hop => ?_
      have hidle := idle_of_accepts_arqCommand ha hop
      rw [blockResponse_of_idle _ hidle, hidle]
    next => rfl

theorem eq_blockStep_of_cycle {t : State} (h : cycle i s = .next t) : t = blockStep Config.hardware s i := by
  cases h.symm.trans (cycle_eq_blockStep i s)
  rfl

end

/-! ### A run is the fold of the one-step function -/

section
variable (p : Config.Params) (is : List Inputs) (s : State)

theorem retry_present : retry p (s.present is) = (retry p s).present is := by
  have hceiling : atCeiling p (s.present is) = atCeiling p s := rfl
  unfold retry
  rw [hceiling]
  split <;> rfl

theorem blockResponse_present (i : Inputs) :
    blockResponse p (s.present is) i = (blockResponse p s i).present is := by
  simp only [blockResponse, State.present_fsm, retry_present]
  split_ifs <;> rfl

theorem blockCommand_present (w : CommandWord) (t : State) :
    blockCommand p (s.present is) w (t.present is) = (blockCommand p s w t).present is := by
  unfold blockCommand
  split <;> rfl

/-- The one-step function does not see the samples of the coming cycles. -/
theorem blockStep_present (i : Inputs) : blockStep p (s.present is) i = (blockStep p s i).present is := by
  simp only [blockStep, State.present_fsm, blockResponse_present, blockCommand_present]
  split_ifs <;> rfl

theorem runInputs_eq_blockRun : runInputs is s = .next (blockRun Config.hardware is s) := by
  induction is generalizing s with
  | nil => rfl
  | cons i is ih =>
    have hcycle : cycle i (s.present is) = .next ((blockStep Config.hardware s i).present is) := by
      rw [cycle_eq_blockStep, blockStep_present]
    rw [runInputs_cons_of_cycle hcycle, ih, blockRun_cons]

end

theorem eq_blockRun_of_runInputs {is : List Inputs} {s t : State} (h : runInputs is s = .next t) :
    t = blockRun Config.hardware is s := by
  cases h.symm.trans (runInputs_eq_blockRun is s)
  rfl

end Sys2Proof.Machine

/-! The ARQ unit in one step (spec/42_arq.md sections 2 and 3). Idle, a step does what its ARQ command does, and nothing
else. Busy, it does what the answer does: nothing without one, the acknowledgment after the delivered frame, the end of the
message after the delivered acknowledgment, the next attempt after a loss. -/

namespace Sys2Proof.Machine

/-! ### The ARQ commands (R152, R153, R163) -/

section
variable {s : State} {w : CommandWord}

theorem holdWhileBusy_of_idle (f : State → State) (h : s.fsm = .idle) : holdWhileBusy f s = f s := by
  rw [holdWhileBusy, (busy_eq_false_iff s).2 h]
  rfl

theorem holdWhileBusy_of_busy (f : State → State) (h : s.fsm ≠ .idle) : holdWhileBusy f s = s := by
  rw [holdWhileBusy, (busy_eq_true_iff s).2 h]
  rfl

theorem cmdReady_of_arqCommand (h : opField w = 0x4 ∨ opField w = 0x5) (s : State) :
    s.cmdReady w = decide (s.fsm = .idle) := by
  rw [← Bool.not_inj_iff, Bool.eq_iff_iff, Bool.not_eq_true', cmdReady_eq_false_iff, and_iff_left h]
  simp

/-- Idle and outside reset, a command is accepted as soon as it is presented. -/
theorem accepts_of_idle {i : Inputs} (h : s.fsm = .idle) (hr : i.rst = false) : s.accepts i = i.cmdValid := by
  simp [State.accepts, State.cmdReady, (busy_eq_false_iff s).2 h, hr]

end

/-- Settles O18: the held update runs exactly when idle, and of the reset state it makes the same state. -/
theorem arqInitCreatesFreshProtocol : Obligations.ArqInitCreatesFreshProtocol := by
  refine ⟨fun s => ⟨fun h => ?_, fun h => ?_, fun w hw => ⟨?_, cmdReady_of_arqCommand (.inl hw) s⟩⟩, rfl⟩
  · rw [exec_arqInit, holdWhileBusy_of_idle _ h]; rfl
  · rw [exec_arqInit, holdWhileBusy_of_busy _ h]
  · simp [decodeCommand, hw]

/-- Settles O19: after the update the arbiter grants the frame of the state it leaves. -/
theorem arqSendBeginsMessage : Obligations.ArqSendBeginsMessage := by
  intro v s
  refine ⟨fun h => ?_, fun h => ?_, fun w hw => ⟨?_, cmdReady_of_arqCommand (.inr hw) s⟩⟩
  · have hexec : exec (.arqSend v) s = .next (beginMessage v s) := by
      rw [exec_arqSend, holdWhileBusy_of_idle _ h]
    refine ⟨hexec, fun t ht => ?_⟩
    cases hexec.symm.trans ht
    obtain ⟨-, hvalid, hkind, htag⟩ := channelPort_of_awaitFrame (beginMessage_fsm v s)
    exact ⟨hvalid, hkind, rfl, htag⟩
  · rw [exec_arqSend, holdWhileBusy_of_busy _ h]
  · rw [← operandC16_eq_ofNat]; simp [decodeCommand, hw]

/-- Settles O20: a command that is not ready has no part in the cycle, presented or not. -/
theorem busyHoldsArqCommands : Obligations.BusyHoldsArqCommands := by
  refine ⟨fun s w hb hw => ?_, fun s w h4 h5 => cmdReady_of_opField rfl ⟨h4, h5⟩ s,
    fun s i h hr hv => (accepts_of_idle h hr).trans hv⟩
  have hready : s.cmdReady w = false := (cmdReady_eq_false_iff s w).2 ⟨hb, hw⟩
  refine ⟨hready, fun i => ⟨by simp [State.accepts, hready], ?_⟩⟩
  have hcommand : runCommand false { i with cmdValid := true, cmd := w } =
      runCommand false { i with cmdValid := false, cmd := w } := by
    funext u
    simp [runCommand]
  simp only [cycle, hready, hcommand]
  rfl

/-! ### One step of the ARQ unit -/

section
variable {p : Config.Params} {s : State} {i : Inputs}

theorem blockCommand_arqInit {w : CommandWord} (h : opField w = 0x4) (p : Config.Params) (s s' : State) :
    blockCommand p s w s' = freshProtocol s' := by
  simp [blockCommand, h, freshProtocol]

theorem blockCommand_arqSend {w : CommandWord} (h : opField w = 0x5) (p : Config.Params) (s s' : State) :
    blockCommand p s w s' = beginMessage (operandC16 w) s' := by
  simp [blockCommand, h, beginMessage]

theorem blockCommand_arqPart {w : CommandWord} (h : opField w ≠ 0x4 ∧ opField w ≠ 0x5) (p : Config.Params)
    (s s' : State) : (blockCommand p s w s').arqPart = s'.arqPart := by
  rcases blockCommand_cases p s w s' with ⟨h4, -⟩ | ⟨h5, -⟩ | hkeep
  · exact absurd h4 h.1
  · exact absurd h5 h.2
  · exact hkeep

/-- Outside reset an idle step is its command, if there is one: it is accepted, and an answer has no effect. -/
theorem blockStep_of_idle (hr : i.rst = false) (h : s.fsm = .idle) :
    blockStep p s i = if i.cmdValid then blockCommand p s i.cmd s else s := by
  rcases blockStep_cases p s i with ⟨hr', -⟩ | ⟨-, hstep⟩
  · simp [hr] at hr'
  · rw [hstep, accepts_of_idle h hr, blockResponse_of_idle p h]

theorem blockStep_idle_arqInit (hr : i.rst = false) (h : s.fsm = .idle) (hv : i.cmdValid = true)
    (hop : opField i.cmd = 0x4) : blockStep p s i = freshProtocol s := by
  rw [blockStep_of_idle hr h, if_pos hv, blockCommand_arqInit hop]

theorem blockStep_idle_arqSend (hr : i.rst = false) (h : s.fsm = .idle) (hv : i.cmdValid = true)
    (hop : opField i.cmd = 0x5) : blockStep p s i = beginMessage (operandC16 i.cmd) s := by
  rw [blockStep_of_idle hr h, if_pos hv, blockCommand_arqSend hop]

theorem blockStep_idle_arqPart (hr : i.rst = false) (h : s.fsm = .idle)
    (hother : i.cmdValid = false ∨ (opField i.cmd ≠ 0x4 ∧ opField i.cmd ≠ 0x5)) :
    (blockStep p s i).arqPart = s.arqPart := by
  rw [blockStep_of_idle hr h]
  split
  next hv => exact blockCommand_arqPart (hother.resolve_left (by simp [hv])) p s s
  next => rfl

/-- Everything an idle step can do to the ARQ unit. -/
theorem blockStep_idle_cases (hr : i.rst = false) (h : s.fsm = .idle) :
    (s.accepts i = true ∧ opField i.cmd = 0x4 ∧ blockStep p s i = freshProtocol s) ∨
    (s.accepts i = true ∧ opField i.cmd = 0x5 ∧ blockStep p s i = beginMessage (operandC16 i.cmd) s) ∨
    (blockStep p s i).arqPart = s.arqPart := by
  cases hv : i.cmdValid
  · exact .inr (.inr (blockStep_idle_arqPart hr h (.inl hv)))
  have ha : s.accepts i = true := (accepts_of_idle h hr).trans hv
  by_cases h4 : opField i.cmd = 0x4
  · exact .inl ⟨ha, h4, blockStep_idle_arqInit hr h hv h4⟩
  by_cases h5 : opField i.cmd = 0x5
  · exact .inr (.inl ⟨ha, h5, blockStep_idle_arqSend hr h hv h5⟩)
  exact .inr (.inr (blockStep_idle_arqPart hr h (.inr ⟨h4, h5⟩)))

theorem blockResponse_unanswered (hv : i.rspValid = false) : blockResponse p s i = s := by
  simp [blockResponse, hv]

theorem blockResponse_frameDelivered (hv : i.rspValid = true) (hd : i.rspDelivered = 1)
    (hf : s.fsm = .awaitFrame) : blockResponse p s i = frameDelivered s := by
  simp [blockResponse, hv, hd, hf, frameDelivered]

theorem blockResponse_ackDelivered (hv : i.rspValid = true) (hd : i.rspDelivered = 1)
    (hf : s.fsm = .awaitAck) : blockResponse p s i = ackDelivered s := by
  simp [blockResponse, hv, hd, hf, ackDelivered]

theorem blockResponse_lost (hv : i.rspValid = true) (hd : i.rspDelivered = 0) (hb : s.fsm ≠ .idle) :
    blockResponse p s i = retry p s := by
  simp [blockResponse, hv, hd, hb]

/-- A busy step does to the ARQ unit what its answer does (R163). -/
theorem blockStep_busy_arqPart (hr : i.rst = false) (hb : s.fsm ≠ .idle) :
    (blockStep p s i).arqPart = (blockResponse p s i).arqPart := by
  rcases blockStep_cases p s i with ⟨hr', -⟩ | ⟨-, hstep⟩
  · simp [hr] at hr'
  · rw [hstep]
    split
    next ha => exact blockCommand_arqPart (opField_of_accepts_busy ((busy_eq_true_iff s).2 hb) ha) p s _
    next => rfl

/-- Everything a busy step of this hardware can do to the ARQ unit: the busy rows of R151. -/
theorem blockStep_busy_cases (hr : i.rst = false) (hb : s.fsm ≠ .idle) :
    (i.rspValid = false ∧ (blockStep Config.hardware s i).arqPart = s.arqPart) ∨
    (i.rspValid = true ∧ i.rspDelivered = 1 ∧ s.fsm = .awaitFrame ∧
      (blockStep Config.hardware s i).arqPart = (frameDelivered s).arqPart) ∨
    (i.rspValid = true ∧ i.rspDelivered = 1 ∧ s.fsm = .awaitAck ∧
      (blockStep Config.hardware s i).arqPart = (ackDelivered s).arqPart) ∨
    (i.rspValid = true ∧ i.rspDelivered = 0 ∧
      (blockStep Config.hardware s i).arqPart = (nextAttempt Config.hardware s).arqPart) := by
  rw [blockStep_busy_arqPart hr hb]
  rcases blockResponse_cases Config.hardware s i with ⟨hnone, h⟩ | ⟨hv, hd, hf, h⟩ | ⟨hv, hd, hf, h⟩ |
    ⟨hv, hd, -, h⟩ <;> rw [h]
  · exact .inl ⟨hnone.resolve_right hb, rfl⟩
  · exact .inr (.inl ⟨hv, hd, hf, rfl⟩)
  · exact .inr (.inr (.inl ⟨hv, hd, hf, rfl⟩))
  · exact .inr (.inr (.inr ⟨hv, hd, by rw [retry_hardware]⟩))

end

/-- Settles O36: R151's rows, the idle ones by the command presented and the busy ones by the answer given. -/
theorem transitionTable : Obligations.TransitionTable := by
  intro i s t hr h
  rw [eq_blockStep_of_cycle h]
  refine ⟨fun hidle => ⟨fun hv h4 => ?_, fun hv h5 => ?_, blockStep_idle_arqPart hr hidle⟩,
    fun hb hv => ?_, fun hf hv hd => ?_, fun hf hv hd => ?_, fun hb hv hd => ?_⟩
  · rw [blockStep_idle_arqInit hr hidle hv h4, State.arqPart, freshProtocol_fsm, hidle]
    rfl
  · rw [blockStep_idle_arqSend hr hidle hv h5]
    rfl
  · rw [blockStep_busy_arqPart hr hb, blockResponse_unanswered hv]
  · rw [blockStep_busy_arqPart hr (by simp [hf]), blockResponse_frameDelivered hv hd hf]
    rfl
  · rw [blockStep_busy_arqPart hr (by simp [hf]), blockResponse_ackDelivered hv hd hf]
    rfl
  · rw [blockStep_busy_arqPart hr hb, blockResponse_lost hv hd hb, retry_hardware]
    rfl

end Sys2Proof.Machine

/-! A message from its first step to its end (spec/42_arq.md sections 4 to 7). With `done` a busy step ends the message and
without it the step goes on with the same one, and the events of a step hold a delivered message exactly with `done`. The
laws of runs are inductions over these facts: which events came last, how the sequence bit and the counter move, and when
a message ends. -/

namespace Sys2Proof.Machine

/-! ### A busy step, with `done` and without -/

section
variable {s : State} {i : Inputs}

/-- The valid detect ends the message (R156, R159). -/
theorem blockStep_done_arqPart (hdone : s.done i = true) (p : Config.Params) :
    (blockStep p s i).arqPart = (ackDelivered s).arqPart := by
  obtain ⟨hr, hf, hv, hd⟩ := (done_eq_true_iff s i).1 hdone
  rw [blockStep_busy_arqPart hr (by simp [hf]), blockResponse_ackDelivered hv hd hf]

/-- A busy step without `done` goes on with the same message, and counts its answer if that is a loss. -/
theorem blockStep_undelivered (hr : i.rst = false) (hb : s.fsm ≠ .idle) (hdone : s.done i = false) :
    (blockStep Config.hardware s i).fsm ≠ .idle ∧ (blockStep Config.hardware s i).tag = s.tag ∧
      (blockStep Config.hardware s i).seq = s.seq ∧ (blockStep Config.hardware s i).result = s.result ∧
      (blockStep Config.hardware s i).attempt.toNat =
        min (s.attempt.toNat + (answers [i]).count 0) (2 ^ 32 - 1) := by
  have hlt : s.attempt.toNat < 2 ^ 32 := s.attempt.isLt
  rcases blockStep_busy_cases hr hb with ⟨hv, hpart⟩ | ⟨hv, hd, -, hpart⟩ | ⟨hv, hd, hf, -⟩ | ⟨hv, hd, hpart⟩
  case inr.inr.inl => simp [(done_eq_true_iff s i).2 ⟨hr, hf, hv, hd⟩] at hdone
  all_goals
    obtain ⟨hseq, hattempt, hfsm, htag, hresult⟩ := arqPart_eq_iff.1 hpart
    rw [hseq, hattempt, hfsm, htag, hresult]
  · exact ⟨hb, rfl, rfl, rfl, by simp [answers, hv]; omega⟩
  · exact ⟨by simp, rfl, rfl, rfl, by simp [answers, hv, hd]; omega⟩
  · refine ⟨by simp, rfl, rfl, rfl, ?_⟩
    simp only [answers, hv, hd, if_true, List.count_cons_self, List.count_nil]
    exact satIncr_toNat 32 le_rfl _

end

/-- Settles O46: without reset and without `done` a busy step stays busy. -/
theorem onlyResetOrDoneEndsMessage : Obligations.OnlyResetOrDoneEndsMessage := by
  intro s t h hs ht
  obtain ⟨-, -, htake, -, -⟩ := arqPart_eq_iff.1 (takeInputs_arqPart s)
  have hb : s.takeInputs.fsm ≠ .idle := by rw [htake]; exact (busy_eq_true_iff s).1 hs
  have hidle : (blockStep Config.hardware s.takeInputs s.nextInputs).fsm = .idle := by
    rw [← eq_blockStep_of_cycle h]; exact (busy_eq_false_iff t).1 ht
  have hsame : s.takeInputs.done s.nextInputs = s.done s.nextInputs := by simp only [State.done, htake]
  by_contra hneither
  obtain ⟨hr, hdone⟩ := not_or.1 hneither
  rw [Bool.not_eq_true] at hr hdone
  exact (blockStep_undelivered hr hb (hsame.trans hdone)).1 hidle

/-- Settles O47: with `done` the step ends the message, without it the step goes on with it. -/
theorem messageFixedWhileBusy : Obligations.MessageFixedWhileBusy := by
  intro i s t hr h hs
  have hb : s.fsm ≠ .idle := (busy_eq_true_iff s).1 hs
  rw [busy_eq_true_iff, busy_eq_false_iff, eq_blockStep_of_cycle h]
  cases hdone : s.done i
  · obtain ⟨hbusy, htag, hseq, hresult, hattempt⟩ := blockStep_undelivered hr hb hdone
    have hlt : s.attempt.toNat < 2 ^ 32 := s.attempt.isLt
    exact ⟨htag, by omega, fun _ => ⟨hseq, hresult⟩, fun hidle => absurd hidle hbusy⟩
  · obtain ⟨hseq, hattempt, hfsm, htag, hresult⟩ := arqPart_eq_iff.1 (blockStep_done_arqPart hdone Config.hardware)
    rw [hseq, hattempt, hfsm, htag, hresult]
    exact ⟨rfl, le_rfl, fun hbusy => absurd (ackDelivered_fsm s) hbusy, fun _ => ⟨bit_xor_one s.seq, rfl, rfl⟩⟩

/-! ### The events of one step -/

section
variable {p : Config.Params} {s : State}

theorem responseEvents_idle (h : s.fsm = .idle) (d : Bit) : responseEvents p s d = [] := by
  rw [responseEvents, grant_eq_none_iff.2 h]

theorem responseEvents_frameDelivered (h : s.fsm = .awaitFrame) :
    responseEvents p s 1 = [.tx .frame s.seq s.tag, .rsp 1] := by
  simp [responseEvents, State.grant, endEvents, h]

theorem responseEvents_ackDelivered (h : s.fsm = .awaitAck) :
    responseEvents p s 1 = [.tx .ack s.seq 0x0000, .rsp 1, .done s.seq s.tag s.attempt] := by
  simp [responseEvents, State.grant, endEvents, h]

theorem responseEvents_lost (hb : s.fsm ≠ .idle) : responseEvents p s 0 =
    .tx (if s.fsm = .awaitFrame then .frame else .ack) s.seq s.txTag :: .rsp 0 ::
      if atCeiling p s then [.gaveUp s.seq s.tag s.attempt] else [] := by
  cases hf : s.fsm
  · exact absurd hf hb
  · simp [responseEvents, State.grant, State.txTag, endEvents, hf]
  · simp [responseEvents, State.grant, State.txTag, endEvents, hf]

end

section
variable (p : Config.Params) (s : State) (i : Inputs)

/-- Of an answer's events, a message was delivered exactly with the acknowledgment's delivery. -/
theorem responseEvents_filter_isDone (d : Bit) : (responseEvents p s d).filter Event.isDone =
    if s.fsm = .awaitAck ∧ d = 1 then [.done s.seq s.tag s.attempt] else [] := by
  rcases decodeResponse_cases d with ⟨rfl, -⟩ | ⟨rfl, -⟩ <;> cases hf : s.fsm
  case inl.idle | inr.idle => rw [responseEvents_idle hf]; rfl
  case inl.awaitFrame => rw [responseEvents_frameDelivered hf]; rfl
  case inl.awaitAck => rw [responseEvents_ackDelivered hf]; rfl
  case inr.awaitFrame | inr.awaitAck =>
    rw [responseEvents_lost (by simp [hf])]
    split <;> simp [Event.isDone]

theorem responseEvents_filter_isChannel (d : Bit) :
    (responseEvents p s d).filter Event.isChannel = responseEvents p s d := by
  unfold responseEvents endEvents
  cases s.grant with
  | none => rfl
  | some u => simp only; split_ifs <;> rfl

theorem stepEvents_outside_reset (hr : i.rst = false) : stepEvents p s i =
    (if i.rspValid then responseEvents p s i.rspDelivered else []) ++
      if s.accepts i then [.cmd (decodeCommand i.cmd)] else [] := by
  rw [stepEvents, hr]
  rfl

/-- An accepted command is an event that no filter for other events keeps. -/
theorem commandEvents_filter {keep : Event → Bool} (hkeep : ∀ c, keep (.cmd c) = false) :
    (if s.accepts i then [Event.cmd (decodeCommand i.cmd)] else []).filter keep = [] := by
  split <;> simp [hkeep]

/-- A step has the event of a delivered message exactly when `done` is 1 (R159). -/
theorem stepEvents_filter_isDone : (stepEvents p s i).filter Event.isDone =
    if s.done i then [.done s.seq s.tag s.attempt] else [] := by
  cases hr : i.rst
  · rw [stepEvents_outside_reset p s i hr, List.filter_append, commandEvents_filter s i fun _ => rfl,
      List.append_nil]
    cases hv : i.rspValid <;> simp [State.done, hr, hv, responseEvents_filter_isDone]
  · simp [stepEvents, State.done, hr, Event.isDone]

theorem stepEvents_filter_isChannel (hr : i.rst = false) : (stepEvents p s i).filter Event.isChannel =
    if i.rspValid then responseEvents p s i.rspDelivered else [] := by
  rw [stepEvents_outside_reset p s i hr, List.filter_append, commandEvents_filter s i fun _ => rfl,
    List.append_nil]
  split
  · exact responseEvents_filter_isChannel p s _
  · rfl

theorem mem_stepEvents_reset (hr : i.rst = true) : .reset ∈ stepEvents p s i := by
  simp [stepEvents, hr]

theorem mem_stepEvents_cmd (hr : i.rst = false) (ha : s.accepts i = true) :
    .cmd (decodeCommand i.cmd) ∈ stepEvents p s i := by
  simp [stepEvents_outside_reset p s i hr, ha]

end

/-! ### A loss under a ceiling (R172) -/

theorem atCeiling_eq_true_iff (p : Config.Params) (s : State) :
    atCeiling p s = true ↔ p.maxAttempts ≠ 0 ∧ p.maxAttempts ≤ s.attempt.toNat := by
  simp [atCeiling]

theorem satIncr_of_lt {w : Nat} {x : AttemptCount} (hw : w ≤ 32) (h : x.toNat < 2 ^ w - 1) :
    satIncr w x = x + 1 := by
  have hfits : 2 ^ w ≤ 2 ^ 32 := Nat.pow_le_pow_right (by omega) hw
  have hone : (1 : AttemptCount).toNat = 1 := rfl
  apply BitVec.eq_of_toNat_eq
  rw [satIncr_toNat w hw, BitVec.toNat_add_of_lt (by omega), hone]
  omega

/-- An answer given alone is a step of the channel's part only. -/
theorem blockStep_ofResponse (p : Config.Params) (s : State) (d : Bit) :
    blockStep p s (Inputs.ofResponse d) = blockResponse p s (Inputs.ofResponse d) := by
  simp [blockStep, Inputs.ofResponse]

theorem trace_ofResponse (p : Config.Params) (s : State) (d : Bit) :
    trace p [Inputs.ofResponse d] s = responseEvents p s d := by
  simp [stepEvents, Inputs.ofResponse, State.accepts]

/-- Settles O44: the retry at the ceiling and below it, where a counter of well-formed width does not saturate. -/
theorem ceilingAbandonsLastAttempt : Obligations.CeilingAbandonsLastAttempt := by
  intro p s hw hp hb
  obtain ⟨-, hwidth, hmax⟩ := counter_of_wellFormed hw
  have hstep : blockStep p s (Inputs.ofResponse 0) = retry p s := by
    rw [blockStep_ofResponse, blockResponse_lost rfl rfl hb]
  have hloss : s.loss (Inputs.ofResponse 0) = true := (loss_eq_true_iff s _).2 ⟨rfl, hb, rfl, rfl⟩
  have hdone : s.done (Inputs.ofResponse 0) = false := by simp [State.done, Inputs.ofResponse]
  refine ⟨fun hceiling => ?_, fun hbelow => ?_, hloss, hdone⟩
  · have hat : atCeiling p s = true := (atCeiling_eq_true_iff p s).2 ⟨hp, hceiling⟩
    rw [hstep, retry, trace_ofResponse, responseEvents_lost hb, if_pos hat, if_pos hat]
    exact ⟨rfl, rfl⟩
  · rcases retry_cases p s with ⟨-, hceiling, -⟩ | ⟨-, hretry⟩
    · omega
    · rw [hstep, hretry, nextAttempt, satIncr_of_lt hwidth (by omega)]

/-! ### The messages and answers of a run, step by step -/

section
variable (p : Config.Params) (i : Inputs) (is : List Inputs) (s : State)

@[simp] theorem deliveredCount_nil : deliveredCount p [] s = 0 := rfl

/-- A step delivers a message exactly when `done` is 1. -/
theorem deliveredCount_cons : deliveredCount p (i :: is) s =
    (if s.done i then 1 else 0) + deliveredCount p is (blockStep p s i) := by
  rw [deliveredCount, trace_cons, List.filter_append, List.length_append, stepEvents_filter_isDone, deliveredCount]
  split <;> rfl

theorem noReset_cons : noReset (i :: is) = true ↔ i.rst = false ∧ noReset is = true := by
  simp [noReset]

theorem answers_cons : answers (i :: is) = answers [i] ++ answers is := by
  simp only [answers]
  split <;> rfl

end

/-! ### The last events before `done` (R159) -/

section
variable {s : State} {i : Inputs}

theorem rst_eq_false_of_busy_after {p : Config.Params} (h : (blockStep p s i).fsm ≠ .idle) : i.rst = false := by
  rcases blockStep_cases p s i with ⟨-, hstep⟩ | ⟨hr, -⟩
  · rw [hstep] at h
    exact absurd (resetBlock_fsm p s) h
  · exact hr

/-- The acknowledgment stays on the port only as long as it is not answered. -/
theorem unanswered_of_stays_awaitAck (hs : s.fsm = .awaitAck)
    (ht : (blockStep Config.hardware s i).fsm = .awaitAck) : i.rst = false ∧ i.rspValid = false := by
  have hr : i.rst = false := rst_eq_false_of_busy_after (s := s) (p := Config.hardware) (by simp [ht])
  refine ⟨hr, ?_⟩
  rcases blockStep_busy_cases (s := s) hr (by simp [hs]) with ⟨hv, -⟩ | ⟨-, -, hframe, -⟩ |
    ⟨-, -, -, hpart⟩ | ⟨-, -, hpart⟩
  · exact hv
  · simp [hs] at hframe
  · obtain ⟨-, -, hfsm, -, -⟩ := arqPart_eq_iff.1 hpart
    simp [ht] at hfsm
  · obtain ⟨-, -, hfsm, -, -⟩ := arqPart_eq_iff.1 hpart
    simp [ht] at hfsm

end

/-- A run that did not start in AWAIT_ACK and stands there now has just had its frame answered delivered: since then
there was no event on the channel port, and the bit and the handle are those of that frame. -/
theorem trace_of_awaitAck {is : List Inputs} {s : State} (hs : s.fsm ≠ .awaitAck)
    (ht : (blockRun Config.hardware is s).fsm = .awaitAck) :
    ∃ before : List Event, (trace Config.hardware is s).filter Event.isChannel = before ++
      [.tx .frame (blockRun Config.hardware is s).seq (blockRun Config.hardware is s).tag, .rsp 1] := by
  induction is using List.reverseRecOn with
  | nil => exact absurd ht hs
  | append_singleton is i ih =>
    rw [trace_append, List.filter_append, trace_cons, trace_nil, List.append_nil]
    rw [blockRun_append, blockRun_cons, blockRun_nil] at ht ⊢
    generalize blockRun Config.hardware is s = u at ih ht ⊢
    by_cases hu : u.fsm = .awaitAck
    · obtain ⟨hr, hv⟩ := unanswered_of_stays_awaitAck hu ht
      have hpart : (blockStep Config.hardware u i).arqPart = u.arqPart := by
        rw [blockStep_busy_arqPart hr (by simp [hu]), blockResponse_unanswered hv]
      have hevents : (stepEvents Config.hardware u i).filter Event.isChannel = [] := by
        simp [stepEvents_filter_isChannel _ u i hr, hv]
      obtain ⟨hseq, -, -, htag, -⟩ := arqPart_eq_iff.1 hpart
      obtain ⟨before, hbefore⟩ := ih hu
      exact ⟨before, by rw [hseq, htag, hbefore, hevents, List.append_nil]⟩
    · obtain ⟨hframe, hr, hv, hd⟩ := cycle_enters_awaitAck (cycle_eq_blockStep i u) hu ht
      have hpart : (blockStep Config.hardware u i).arqPart = (frameDelivered u).arqPart := by
        rw [blockStep_busy_arqPart hr (by simp [hframe]), blockResponse_frameDelivered hv hd hframe]
      have hevents : (stepEvents Config.hardware u i).filter Event.isChannel = [.tx .frame u.seq u.tag, .rsp 1] := by
        rw [stepEvents_filter_isChannel _ u i hr, if_pos hv, hd, responseEvents_frameDelivered hframe]
      obtain ⟨hseq, -, -, htag, -⟩ := arqPart_eq_iff.1 hpart
      exact ⟨(trace Config.hardware is s).filter Event.isChannel, by rw [hseq, htag, hevents]; rfl⟩

/-- Settles O49: `done` is 1 in AWAIT_ACK, with the acknowledgment's delivery; before it stand the events of
`trace_of_awaitAck`. -/
theorem doneMeansFrameAndAckOfOneAttempt : Obligations.DoneMeansFrameAndAckOfOneAttempt := by
  intro is s t i hs hrun hdone
  obtain ⟨hr, hack, hv, hd⟩ := (done_eq_true_iff t i).1 hdone
  have hstart : s.fsm ≠ .awaitAck := by simp [(busy_eq_false_iff s).1 hs]
  have ht := eq_blockRun_of_runInputs hrun
  obtain ⟨before, hbefore⟩ := trace_of_awaitAck hstart (ht ▸ hack)
  refine ⟨before, ?_⟩
  rw [trace_append, List.filter_append, hbefore, trace_cons, trace_nil, List.append_nil, ← ht,
    stepEvents_filter_isChannel _ _ _ hr, if_pos hv, hd, responseEvents_ackDelivered hack, List.append_assoc]
  rfl

/-! ### The sequence bit (R166) -/

/-- The bit moves by one with each delivered message, and otherwise only by reset and `ARQ.INIT`. -/
theorem blockStep_seq {i : Inputs} {s : State} (hr : i.rst = false)
    (hinit : s.accepts i = true → opField i.cmd ≠ 0x4) :
    (blockStep Config.hardware s i).seq = s.seq + BitVec.ofNat 1 (if s.done i then 1 else 0) := by
  by_cases hb : s.fsm = .idle
  · have hdone : s.done i = false := by simp [State.done, hb]
    rw [hdone]
    rcases blockStep_idle_cases (p := Config.hardware) hr hb with ⟨ha, h4, -⟩ | ⟨-, -, hstep⟩ | hpart
    · exact absurd h4 (hinit ha)
    · simp [hstep]
    · obtain ⟨hseq, -, -, -, -⟩ := arqPart_eq_iff.1 hpart
      simp [hseq]
  · cases hdone : s.done i
    · obtain ⟨-, -, hseq, -, -⟩ := blockStep_undelivered hr hb hdone
      simp [hseq]
    · obtain ⟨hseq, -, -, -, -⟩ := arqPart_eq_iff.1 (blockStep_done_arqPart hdone Config.hardware)
      exact hseq.trans (bit_xor_one s.seq)

theorem blockRun_seq {is : List Inputs} {s : State}
    (h : ∀ e ∈ trace Config.hardware is s, e ≠ .reset ∧ e ≠ .cmd .arqInit) :
    (blockRun Config.hardware is s).seq = s.seq + BitVec.ofNat 1 (deliveredCount Config.hardware is s) := by
  induction is generalizing s with
  | nil => simp
  | cons i is ih =>
    rw [trace_cons, List.forall_mem_append] at h
    obtain ⟨hstep, hrest⟩ := h
    have hr : i.rst = false := by
      by_contra hr
      exact (hstep .reset (mem_stepEvents_reset _ s i (by simpa using hr))).1 rfl
    have hinit : s.accepts i = true → opField i.cmd ≠ 0x4 := fun ha h4 =>
      (hstep _ (mem_stepEvents_cmd _ s i hr ha)).2 (by simp [decodeCommand, h4])
    rw [blockRun_cons, ih hrest, blockStep_seq hr hinit, deliveredCount_cons, BitVec.ofNat_add, BitVec.add_assoc]

/-- Settles O50: the bit of a run by `blockRun_seq`; the frame of the next message shows the bit of its idle state. -/
theorem sequenceBitAlternates : Obligations.SequenceBitAlternates := by
  intro is s h
  have hseq := blockRun_seq h
  refine ⟨_, runInputs_eq_blockRun is s, hseq, fun h0 => ?_, fun v u hidle hu => ?_⟩
  · simp [hseq, h0]
  · rw [exec_arqSend, holdWhileBusy_of_idle _ hidle] at hu
    cases hu
    rfl

/-! ### A message that is not delivered (R161, R162, R167, R168) -/

theorem blockRun_undelivered {is : List Inputs} {s : State} (hreset : noReset is = true) (hb : s.fsm ≠ .idle)
    (hcount : deliveredCount Config.hardware is s = 0) :
    (blockRun Config.hardware is s).fsm ≠ .idle ∧ (blockRun Config.hardware is s).tag = s.tag ∧
      (blockRun Config.hardware is s).seq = s.seq ∧
      (blockRun Config.hardware is s).attempt.toNat =
        min (s.attempt.toNat + (answers is).count 0) (2 ^ 32 - 1) := by
  induction is generalizing s with
  | nil =>
    have hlt : s.attempt.toNat < 2 ^ 32 := s.attempt.isLt
    exact ⟨hb, rfl, rfl, by simp [answers]; omega⟩
  | cons i is ih =>
    obtain ⟨hr, hrs⟩ := (noReset_cons i is).1 hreset
    rw [deliveredCount_cons, Nat.add_eq_zero_iff] at hcount
    obtain ⟨hfirst, hlater⟩ := hcount
    have hdone : s.done i = false := by simpa using hfirst
    obtain ⟨hb', htag', hseq', -, hattempt'⟩ := blockStep_undelivered hr hb hdone
    obtain ⟨hbusy, htag, hseq, hattempt⟩ := ih hrs hb' hlater
    refine ⟨hbusy, htag.trans htag', hseq.trans hseq', ?_⟩
    rw [blockRun_cons, hattempt, hattempt', answers_cons i is, List.count_append]
    omega

/-- Settles O51: the first step begins the message with the counter at 1, and `blockRun_undelivered` is the rest. -/
theorem attemptIsOnePlusLosses : Obligations.AttemptIsOnePlusLosses := by
  intro v is s hs hreset hcount
  have hbegin : blockStep Config.hardware s (Inputs.ofCommand (commandWord 0x5 v)) = beginMessage v s := by
    have hstep := blockStep_idle_arqSend (p := Config.hardware) (i := Inputs.ofCommand (commandWord 0x5 v)) rfl
      ((busy_eq_false_iff s).1 hs) rfl (opField_commandWord 0x5 v)
    rwa [Inputs.ofCommand, operandC16_commandWord] at hstep
  rw [deliveredCount_cons, hbegin, Nat.add_eq_zero_iff] at hcount
  obtain ⟨hbusy, htag, hseq, hattempt⟩ := blockRun_undelivered (s := beginMessage v s) hreset (by simp) hcount.2
  refine ⟨_, runInputs_eq_blockRun _ s, ?_⟩
  rw [blockRun_cons, hbegin, busy_eq_true_iff]
  refine ⟨hbusy, htag, hseq, ?_⟩
  rw [hattempt, Nat.add_comm]
  rfl

/-- The answers that the attempt in progress has had already: in AWAIT_ACK, the delivery of its frame. -/
def State.attemptAnswers (s : State) : List Bit := if s.fsm = .awaitAck then [1] else []

section
variable {s : State}

theorem attemptAnswers_of_awaitAck (h : s.fsm = .awaitAck) : s.attemptAnswers = [1] := if_pos h

theorem attemptAnswers_of_awaitFrame (h : s.fsm = .awaitFrame) : s.attemptAnswers = [] := if_neg (by simp [h])

/-- A loss cannot stand between two consecutive deliveries, so what came before it does not count. -/
theorem two_deliveries_after_loss (s : State) (as : List Bit) :
    [1, 1] <:+: s.attemptAnswers ++ 0 :: as ↔ [1, 1] <:+: as := by
  unfold State.attemptAnswers
  split <;> simp [List.infix_cons_iff]

/-- A busy step without `done` keeps the account: the attempt's answers and the coming ones hold two consecutive
deliveries after the step if and only if they did before it. -/
theorem two_deliveries_blockStep {i : Inputs} (hr : i.rst = false) (hb : s.fsm ≠ .idle) (hdone : s.done i = false)
    (as : List Bit) : [1, 1] <:+: (blockStep Config.hardware s i).attemptAnswers ++ as ↔
      [1, 1] <:+: s.attemptAnswers ++ (answers [i] ++ as) := by
  rcases blockStep_busy_cases hr hb with ⟨hv, hpart⟩ | ⟨hv, hd, hf, hpart⟩ | ⟨hv, hd, hf, -⟩ | ⟨hv, hd, hpart⟩
  case inr.inr.inl => simp [(done_eq_true_iff s i).2 ⟨hr, hf, hv, hd⟩] at hdone
  all_goals obtain ⟨-, -, hfsm, -, -⟩ := arqPart_eq_iff.1 hpart
  · have hanswers : answers [i] = [] := by simp [answers, hv]
    rw [hanswers, List.nil_append, State.attemptAnswers, hfsm, ← State.attemptAnswers]
  · have hanswers : answers [i] = [1] := by simp [answers, hv, hd]
    rw [hanswers, attemptAnswers_of_awaitAck hfsm, attemptAnswers_of_awaitFrame hf, List.nil_append]
  · have hanswers : answers [i] = [0] := by simp [answers, hv, hd]
    rw [hanswers, attemptAnswers_of_awaitFrame hfsm, List.nil_append, List.singleton_append,
      two_deliveries_after_loss]

/-- Two consecutive deliveries among the answers, those that the attempt in progress has had included, deliver a
message, and nothing else does. -/
theorem deliveredCount_pos_iff {is : List Inputs} (hreset : noReset is = true) (hb : s.fsm ≠ .idle) :
    0 < deliveredCount Config.hardware is s ↔ [1, 1] <:+: s.attemptAnswers ++ answers is := by
  induction is generalizing s with
  | nil =>
    have hshort : (s.attemptAnswers ++ answers []).length ≤ 1 := by
      unfold State.attemptAnswers
      split <;> simp [answers]
    exact ⟨fun hpos => absurd hpos (by simp), fun htwo => absurd (htwo.length_le.trans hshort) (by simp)⟩
  | cons i is ih =>
    obtain ⟨hr, hrs⟩ := (noReset_cons i is).1 hreset
    rw [deliveredCount_cons, answers_cons i is]
    cases hdone : s.done i
    · rw [← two_deliveries_blockStep hr hb hdone, ← ih hrs (blockStep_undelivered hr hb hdone).1]
      simp
    · obtain ⟨-, hf, hv, hd⟩ := (done_eq_true_iff s i).1 hdone
      have hanswers : answers [i] = [1] := by simp [answers, hv, hd]
      rw [hanswers, attemptAnswers_of_awaitAck hf]
      exact ⟨fun _ => (List.prefix_append [1, 1] (answers is)).isInfix, fun _ => by simp⟩

end

/-- Settles O52: in AWAIT_FRAME the attempt in progress has had no answer. -/
theorem messageCompletesOnTwoDeliveries : Obligations.MessageCompletesOnTwoDeliveries := by
  intro is s hf hreset
  rw [deliveredCount_pos_iff hreset (by simp [hf]), attemptAnswers_of_awaitFrame hf, List.nil_append]

/-- Settles O53: nothing is delivered (O52), so the message goes on, and its commands are held. -/
theorem lossesKeepBlockBusy : Obligations.LossesKeepBlockBusy := by
  intro is s hf hreset hnever
  have hcount : deliveredCount Config.hardware is s = 0 := by
    rwa [← messageCompletesOnTwoDeliveries is s hf hreset, Nat.pos_iff_ne_zero, not_not] at hnever
  obtain ⟨hbusy, htag, hseq, -⟩ := blockRun_undelivered hreset (by simp [hf]) hcount
  exact ⟨_, runInputs_eq_blockRun is s, (busy_eq_true_iff _).2 hbusy, hseq, htag,
    fun w hw => (cmdReady_eq_false_iff _ w).2 ⟨hbusy, hw⟩⟩

/-! ### A host program on a channel that never delivers -/

/-- A message is in progress, or the next command to be accepted begins one. -/
def Session.Unfinished (x : Session) : Prop :=
  x.block.fsm ≠ .idle ∨ ∃ v rest, x.pending = commandWord 0x5 v :: rest

theorem Session.Unfinished.not_ended {x : Session} (h : x.Unfinished) : x.ended = false := by
  rcases h with hb | ⟨v, rest, hpending⟩
  · simp [Session.ended, hb]
  · simp [Session.ended, hpending]

/-- Without a delivered answer a busy block stays busy, and an idle one begins the message that is presented. -/
theorem Session.Unfinished.step {x : Session} (h : x.Unfinished) {a : Option Bit} (ha : a ≠ some 1) :
    (x.step Config.hardware a).Unfinished := by
  left
  show (blockStep Config.hardware x.block (x.inputs a)).fsm ≠ .idle
  by_cases hb : x.block.fsm = .idle
  · obtain ⟨v, rest, hpending⟩ := h.resolve_left (not_not.2 hb)
    have hcmd : (x.inputs a).cmd = commandWord 0x5 v := by simp [Session.inputs, hpending]
    have hvalid : (x.inputs a).cmdValid = true := by simp [Session.inputs, hpending]
    rw [blockStep_idle_arqSend rfl hb hvalid (by rw [hcmd, opField_commandWord])]
    simp
  · have hdone : x.block.done (x.inputs a) = false := by
      rw [← Bool.not_eq_true, done_eq_true_iff]
      rintro ⟨-, -, hvalid, hd⟩
      cases a with
      | none => simp [Session.inputs] at hvalid
      | some d => exact ha (congrArg some hd)
    exact (blockStep_undelivered rfl hb hdone).1

theorem Session.Unfinished.run {x : Session} (h : x.Unfinished) {as : List (Option Bit)}
    (has : ∀ a ∈ as, a ≠ some 1) : (Session.run Config.hardware as x).Unfinished := by
  induction as generalizing x with
  | nil => exact h
  | cons a as ih =>
    obtain ⟨ha, hrest⟩ := List.forall_mem_cons.1 has
    exact ih (h.step ha) hrest

/-- Settles O59: the program starts unfinished and stays so, and an unfinished program has not ended. -/
theorem losingChannelNeverEndsProgram : Obligations.LosingChannelNeverEndsProgram :=
  fun v rest _ _ has => Session.Unfinished.not_ended (Session.Unfinished.run (.inr ⟨v, rest, rfl⟩) has)

end Sys2Proof.Machine

/-! `NOP` and the reserved commands (spec/43_system.md). Neither is ever held: an accepted `NOP` has the command's part
of a cycle do what it does without a command, and an accepted reserved command has it set the mark. -/

namespace Sys2Proof.Machine

/-! ### `NOP` (R190) -/

theorem runCommand_of_not_valid {i : Inputs} (hv : i.cmdValid = false) (ready : Bool) (s : State) :
    runCommand ready i s = .next s := by
  simp [runCommand, hv]

/-- Accepted or not, the command's part of a cycle with `NOP` writes nothing. -/
theorem runCommand_of_nop {i : Inputs} (h : decodeCommand i.cmd = .nop) (ready : Bool) (s : State) :
    runCommand ready i s = .next s := by
  unfold runCommand
  split
  · rw [h, exec_nop]
  · rfl

/-- Settles O13: with `NOP` and without a command, the command's part of the cycle is the same. -/
theorem nopChangesNothing : Obligations.NopChangesNothing := by
  refine fun s => ⟨exec_nop s, fun w hw => ?_⟩
  have hdecode : decodeCommand w = .nop := by simp [decodeCommand, hw]
  refine ⟨hdecode, cmdReady_of_opField hw (by decide) s, fun i => ⟨?_, rfl⟩⟩
  have hcommand : runCommand (s.cmdReady w) { i with cmdValid := true, cmd := w } =
      runCommand (s.cmdReady w) { i with cmdValid := false, cmd := w } := by
    funext u
    rw [runCommand_of_nop, runCommand_of_not_valid]
    · rfl
    · exact hdecode
  simp only [cycle, runResponse, hcommand]

/-! ### The reserved commands (R191) -/

theorem marksIllegal_eq_true_iff_mem (e : Instr) : marksIllegal e = true ↔
    e ∈ [Instr.rsvd6, .rsvd7, .rsvd8, .rsvd9, .rsvdA, .rsvdB, .rsvdC, .rsvdD, .rsvdE, .rsvdF] := by
  cases e <;> simp [marksIllegal, tableRow]

theorem exec_of_marksIllegal {e : Instr} (h : marksIllegal e = true) (s : State) :
    exec e s = .next (markIllegal s) := by
  cases e with
  | rsvd6 | rsvd7 | rsvd8 | rsvd9 | rsvdA | rsvdB | rsvdC | rsvdD | rsvdE | rsvdF => rfl
  | _ => simp [marksIllegal, tableRow] at h

theorem cmdReady_of_marksIllegal {w : CommandWord} (h : marksIllegal (decodeCommand w) = true) (s : State) :
    s.cmdReady w = true := by
  refine Bool.eq_true_of_not_eq_false fun hr => ?_
  simp [marksIllegal_of_not_ready hr] at h

/-- An answer and a ready command in one cycle are the two instructions one after the other. -/
theorem cycle_ofBoth {w : CommandWord} {s : State} (hr : s.cmdReady w = true) (d : Bit) :
    cycle (Inputs.ofBoth w d) s = andThen (exec (decodeResponse d) s) (exec (decodeCommand w)) := by
  have hcommand : runCommand true (Inputs.ofBoth w d) = exec (decodeCommand w) := rfl
  rw [← hcommand, ← hr]
  rfl

/-- Settles O14: the words with opcode 6 or more are the reserved commands, and a reserved command, never held, is
one write of the mark. -/
theorem reservedCommandsOnlyMark : Obligations.ReservedCommandsOnlyMark := by
  refine ⟨fun s e he => exec_of_marksIllegal ((marksIllegal_eq_true_iff_mem e).2 he) s, fun s w hw => ?_⟩
  have hmarks : marksIllegal (decodeCommand w) = true := by
    rw [marksIllegal_decodeCommand, decide_eq_true hw]
  have hready : s.cmdReady w = true := cmdReady_of_marksIllegal hmarks s
  refine ⟨(marksIllegal_eq_true_iff_mem _).1 hmarks, hready, fun d => ?_⟩
  rw [cycle_ofBoth hready, funext (exec_of_marksIllegal hmarks)]
  rfl

end Sys2Proof.Machine

/-! Simultaneous events in one step (spec/60_exceptions.md R207). What can be accepted while busy leaves the ARQ unit
alone, an answer leaves the CRC unit alone, and so their order does not matter; when idle there is no answer to order. -/

namespace Sys2Proof.Machine

/-- Only the two ARQ commands write the ARQ unit (spec/10_state.md R38). -/
theorem exec_decodeCommand_arqPart_of_opField {w : CommandWord} (hw : ¬ (opField w = 0x4 ∨ opField w = 0x5))
    {s t : State} (h : exec (decodeCommand w) s = .next t) : t.arqPart = s.arqPart := by
  rcases exec_decodeCommand_arqPart_cases h with ⟨-, h4, -⟩ | ⟨-, h5, -⟩ | hkeep
  · exact absurd (.inl h4) hw
  · exact absurd (.inr h5) hw
  · exact hkeep

theorem crcUnit_decodeResponse (d : Bit) (x : CrcWord × CrcWord) : crcUnit (decodeResponse d) x = x := by
  rcases decodeResponse_cases d with ⟨-, hd⟩ | ⟨-, hd⟩ <;> rw [hd] <;> rfl

theorem not_arqCommand_of_ready_busy {s : State} {w : CommandWord} (hb : s.busy = true)
    (hr : s.cmdReady w = true) : ¬ (opField w = 0x4 ∨ opField w = 0x5) := fun hw =>
  absurd ((cmdReady_eq_false_iff s w).2 ⟨(busy_eq_true_iff s).1 hb, hw⟩) (by simp [hr])

theorem cmdReady_of_idle {s : State} (h : s.fsm = .idle) (w : CommandWord) : s.cmdReady w = true :=
  Bool.eq_true_of_not_eq_false fun hr => ((cmdReady_eq_false_iff s w).1 hr).1 h

/-- Settles O26: the cycle is the answer and then the command; while busy the two write different units
(`andThen_exec_comm`), and when idle the answer is no change. -/
theorem commandAndResponseCommute : Obligations.CommandAndResponseCommute := by
  refine fun s w d => ⟨fun hb hr => ?_, fun hb => ?_⟩
  · have hcommute : andThen (exec (decodeCommand w) s) (exec (decodeResponse d)) =
        andThen (exec (decodeResponse d) s) (exec (decodeCommand w)) :=
      andThen_exec_comm
        (fun _ _ => exec_decodeCommand_arqPart_of_opField (not_arqCommand_of_ready_busy hb hr))
        (crcUnit_decodeResponse d) s
    exact ⟨cycle_ofBoth hr d, (cycle_ofBoth hr d).trans hcommute.symm⟩
  · have hidle : s.fsm = .idle := (busy_eq_false_iff s).1 hb
    rw [cycle_ofBoth (cmdReady_of_idle hidle w), exec_decodeResponse_of_idle hidle, andThen_next]

end Sys2Proof.Machine

/-! The step as a whole (spec/70_reset_and_hazards.md): the machine's step and its runs are R236's one-step function and
the fold of it (`cycle_eq_blockStep`), a step runs the decoded command, the decoded answer, or both, a reset step is
`resetBlock` whatever else is presented (R231, R232), and a step without an event changes nothing (R238). -/

namespace Sys2Proof.Machine

/-! ### The one-step function and its fold (R236) -/

/-- Settles O30: the step is the cycle on the sampled inputs, and the cycle is the one-step function. -/
theorem stepIsOneStepFunction : Obligations.StepIsOneStepFunction := fun s =>
  cycle_eq_blockStep s.nextInputs s.takeInputs

theorem blockStep_inputPart (i : Inputs) (s : State) :
    (blockStep Config.hardware s i).inputPart = s.inputPart :=
  cycle_inputPart (cycle_eq_blockStep i s)

theorem blockRun_inputPart (is : List Inputs) (s : State) :
    (blockRun Config.hardware is s).inputPart = s.inputPart := by
  induction is generalizing s with
  | nil => rfl
  | cons i is ih => rw [blockRun_cons, ih, blockStep_inputPart]

/-- Settles O31: the run is `runInputs_eq_blockRun`, and no step of it writes the model's own fields. -/
theorem runFoldsStepFunction : Obligations.RunFoldsStepFunction := fun is s =>
  ⟨runInputs_eq_blockRun is s, blockRun_inputPart is s⟩

/-! ### The instructions of a step -/

section
variable {i : Inputs} {s : State}

/-- With no answer given the cycle is that of its command presented alone. -/
theorem cycle_of_command_only (hr : i.rst = false) (hc : i.cmdValid = true) (hv : i.rspValid = false) :
    cycle i s = exec (decodeCommand i.cmd) s := by
  rw [← cycle_ofCommand i.cmd s]
  exact unreadInputsIgnored i _ s hr fun _ => ⟨hc, hv, fun _ => rfl, by simp [hv]⟩

/-- With no command presented the cycle is that of its answer given alone. -/
theorem cycle_of_response_only (hr : i.rst = false) (hc : i.cmdValid = false) (hv : i.rspValid = true) :
    cycle i s = exec (decodeResponse i.rspDelivered) s := by
  rw [← cycle_ofResponse i.rspDelivered s]
  exact unreadInputsIgnored i _ s hr fun _ => ⟨hc, hv, by simp [hc], fun _ => rfl⟩

/-- With both, the command runs on what the answer leaves, if it was ready before the answer. -/
theorem cycle_of_both (hr : i.rst = false) (hc : i.cmdValid = true) (hv : i.rspValid = true) :
    cycle i s = andThen (exec (decodeResponse i.rspDelivered) s) fun t =>
      if s.cmdReady i.cmd then exec (decodeCommand i.cmd) t else .next t := by
  have hresponse : runResponse i s = exec (decodeResponse i.rspDelivered) s := if_pos hv
  have hcommand : runCommand (s.cmdReady i.cmd) i = fun t =>
      if s.cmdReady i.cmd then exec (decodeCommand i.cmd) t else .next t := by
    funext t
    rw [runCommand, hc, Bool.true_and]
  rw [← hresponse, ← hcommand]
  exact if_neg (by simp [hr])

end

/-- Settles O29: the three kinds of cycle, with the readiness that using up the sample does not change. -/
theorem stepRunsDecodedInstruction : Obligations.StepRunsDecodedInstruction := by
  refine fun s hr => ⟨cycle_of_command_only hr, cycle_of_response_only hr, fun hc hv => ?_⟩
  rw [← cmdReady_congr (takeInputs_arqPart s)]
  exact cycle_of_both hr hc hv

/-! ### Reset (R231, R232) -/

section
variable {i : Inputs} (s : State)

theorem cycle_of_reset (hr : i.rst = true) : cycle i s = .next (resetBlock Config.hardware s) := if_pos hr

theorem resetBlock_hardware :
    resetBlock Config.hardware s = { State.reset with inputs := s.inputs, draws := s.draws } := rfl

theorem resetBlock_resetBlock (p : Config.Params) : resetBlock p (resetBlock p s) = resetBlock p s := rfl

/-- The output ports do not show the samples of the coming cycles. -/
theorem resetBlock_outputs : (resetBlock Config.hardware s).outputs = State.reset.outputs := rfl

end

/-- Settles O32: a reset cycle reads no other input, and a second one finds the reset state. -/
theorem resetOverridesEverything : Obligations.ResetOverridesEverything := by
  intro i s hr
  refine ⟨(cycle_of_reset s hr).trans (congrArg _ (resetBlock_hardware s)), by simp [State.accepts, hr],
    by simp [State.done, hr], by simp [State.loss, hr], fun j hj => ?_⟩
  rw [cycle_of_reset s hr, andThen_next, cycle_of_reset _ hj, resetBlock_resetBlock]

/-- Settles O33: the state is `resetBlock`'s, and the ports show it as they show the reset state. -/
theorem resetStateAndOutputs : Obligations.ResetStateAndOutputs := by
  intro i s t hr h
  rw [eq_resetBlock_of_cycle hr h, resetBlock_outputs]
  exact ⟨⟨rfl, rfl, rfl, rfl, rfl, rfl, rfl, rfl⟩, by decide, rfl⟩

/-! ### A step with no event (R238) -/

theorem runCommand_of_not_accepted {i : Inputs} {s : State} (hr : i.rst = false) (ha : s.accepts i = false)
    (t : State) : runCommand (s.cmdReady i.cmd) i t = .next t := by
  have hpresented : (i.cmdValid && s.cmdReady i.cmd) = false := by simpa [State.accepts, hr] using ha
  rw [runCommand, hpresented]
  rfl

/-- Settles O34: neither part of the cycle writes anything. -/
theorem quietStepChangesNothing : Obligations.QuietStepChangesNothing := by
  intro i s hr haccepts hanswered
  rcases cycle_cases i s with ⟨hr', -⟩ | ⟨-, hcycle⟩
  · simp [hr] at hr'
  · rw [hcycle, runResponse_of_not_answered hr hanswered, andThen_next, runCommand_of_not_accepted hr haccepts]

end Sys2Proof.Machine

/-! Host programs that end (spec/70_reset_and_hazards.md R239). An idle block accepts the command presented in its step,
and a busy one holds the ARQ command presented; so always-ready commands take one step each, and a message whose units
are all delivered takes three. -/

namespace Sys2Proof.Machine

/-! ### One step of a session -/

section
variable {p : Config.Params} {s : State}

/-- An idle block accepts the first pending command, whatever the channel does. -/
theorem session_step_idle (h : s.fsm = .idle) (w : CommandWord) (rest : List CommandWord) (a : Option Bit) :
    Session.step p ⟨w :: rest, s⟩ a = ⟨rest, blockCommand p s w s⟩ := by
  simp [Session.step, accepts_of_idle h, blockStep_of_idle, h, Session.inputs]

/-- While busy, with no command but ARQ commands pending, the step is the channel's answer alone (spec/42_arq.md
R163). -/
theorem session_step_busy (hb : s.fsm ≠ .idle) {rest : List CommandWord}
    (hheld : ∀ w ∈ rest, opField w = 0x4 ∨ opField w = 0x5) (a : Option Bit) :
    Session.step p ⟨rest, s⟩ a = ⟨rest, blockResponse p s (Session.inputs ⟨rest, s⟩ a)⟩ := by
  have haccepts : s.accepts (Session.inputs ⟨rest, s⟩ a) = false := by
    cases rest with
    | nil => simp [State.accepts, Session.inputs]
    | cons w rest =>
      have hready : s.cmdReady w = false := (cmdReady_eq_false_iff s w).2 ⟨hb, hheld w List.mem_cons_self⟩
      simp [State.accepts, Session.inputs, hready]
  rcases blockStep_cases p s (Session.inputs ⟨rest, s⟩ a) with ⟨hr, -⟩ | ⟨-, hstep⟩
  · cases hr
  · simp [Session.step, hstep, haccepts]

theorem session_run_append (as bs : List (Option Bit)) (x : Session) :
    Session.run p (as ++ bs) x = Session.run p bs (Session.run p as x) := by
  induction as generalizing x with
  | nil => rfl
  | cons a as ih => exact ih (x.step p a)

end

theorem session_ended_iff (x : Session) : x.ended = true ↔ x.pending = [] ∧ x.block.fsm = .idle := by
  simp [Session.ended]

/-! ### Always-ready commands -/

/-- Settles O57: a command that is not an ARQ command leaves the block idle for the next one. -/
theorem readyProgramEnds : Obligations.ReadyProgramEnds := by
  intro cmds
  induction cmds with
  | nil =>
    intro as s hidle _ hlength
    rw [List.length_eq_zero_iff.1 hlength]
    exact (session_ended_iff _).2 ⟨rfl, hidle⟩
  | cons w rest ih =>
    intro as s hidle hready hlength
    obtain ⟨hw, hrest⟩ := List.forall_mem_cons.1 hready
    obtain ⟨a, as, rfl⟩ := List.exists_cons_of_length_eq_add_one hlength
    obtain ⟨-, -, hfsm, -, -⟩ := arqPart_eq_iff.1 (blockCommand_arqPart hw Config.hardware s s)
    rw [session_run_cons, session_step_idle hidle]
    exact ih as _ (hfsm.trans hidle) hrest (Nat.succ.inj hlength)

/-! ### Messages on a channel that always delivers (V6) -/

/-- A message takes three steps: the command's, the frame's delivery, and the acknowledgment's. -/
theorem session_run_delivers_message {p : Config.Params} {s : State} (h : s.fsm = .idle) (v : Handle)
    {rest : List CommandWord} (hheld : ∀ w ∈ rest, opField w = 0x4 ∨ opField w = 0x5) :
    Session.run p (List.replicate 3 (some 1)) ⟨commandWord 0x5 v :: rest, s⟩ =
      ⟨rest, ackDelivered (frameDelivered (beginMessage v s))⟩ := by
  have hcommand : Session.step p ⟨commandWord 0x5 v :: rest, s⟩ (some 1) = ⟨rest, beginMessage v s⟩ := by
    rw [session_step_idle h, blockCommand_arqSend (opField_commandWord 0x5 v), operandC16_commandWord]
  have hframe : Session.step p ⟨rest, beginMessage v s⟩ (some 1) =
      ⟨rest, frameDelivered (beginMessage v s)⟩ := by
    rw [session_step_busy (by simp) hheld, blockResponse_frameDelivered rfl rfl rfl]
  have hack : Session.step p ⟨rest, frameDelivered (beginMessage v s)⟩ (some 1) =
      ⟨rest, ackDelivered (frameDelivered (beginMessage v s))⟩ := by
    rw [session_step_busy (by simp) hheld, blockResponse_ackDelivered rfl rfl rfl]
  simp only [List.replicate, Session.run, hcommand, hframe, hack]

/-- The session of a program of messages `vs`, begun with the sequence bit `seq`, after its first `k` messages. -/
structure Session.Delivered (vs : List Handle) (seq : Bit) (k : Nat) (x : Session) : Prop where
  pending : x.pending = (vs.drop k).map (commandWord 0x5)
  idle : x.block.fsm = .idle
  seq_eq : x.block.seq = seq + BitVec.ofNat 1 k
  last : 0 < k → x.block.attempt = 1 ∧ x.block.result = .delivered ∧ vs[k - 1]? = some x.block.tag

section
variable {vs : List Handle} {k : Nat}

theorem Session.Delivered.start {s : State} (h : s.fsm = .idle) :
    Session.Delivered vs s.seq 0 ⟨vs.map (commandWord 0x5), s⟩ where
  pending := rfl
  idle := h
  seq_eq := by simp
  last := fun hk => absurd hk (by decide)

/-- Three more delivered answers take the session over its next message. -/
theorem Session.Delivered.next {seq : Bit} {x : Session} (hx : x.Delivered vs seq k) (hk : k < vs.length) :
    Session.Delivered vs seq (k + 1) (Session.run Config.hardware (List.replicate 3 (some 1)) x) := by
  obtain ⟨pending, s⟩ := x
  obtain ⟨hpending, hidle, hseq, -⟩ := hx
  dsimp only at hpending hidle hseq
  have hheld : ∀ w ∈ (vs.drop (k + 1)).map (commandWord 0x5), opField w = 0x4 ∨ opField w = 0x5 := by
    intro w hw
    obtain ⟨v, -, rfl⟩ := List.mem_map.1 hw
    exact .inr (opField_commandWord 0x5 v)
  rw [hpending, List.drop_eq_getElem_cons hk, List.map_cons, session_run_delivers_message hidle _ hheld]
  refine ⟨rfl, rfl, ?_, fun _ => ⟨rfl, rfl, List.getElem?_eq_getElem hk⟩⟩
  calc s.seq ^^^ 1 = s.seq + 1 := bit_xor_one s.seq
    _ = seq + BitVec.ofNat 1 (k + 1) := by rw [hseq, BitVec.ofNat_add, BitVec.add_assoc]; rfl

theorem Session.Delivered.ended {seq : Bit} {x : Session} (hx : x.Delivered vs seq vs.length) : x.ended = true :=
  (session_ended_iff x).2 ⟨by rw [hx.pending, List.drop_length, List.map_nil], hx.idle⟩

theorem session_run_delivered {s : State} (h : s.fsm = .idle) (hk : k ≤ vs.length) :
    Session.Delivered vs s.seq k (Session.run Config.hardware (List.replicate (3 * k) (some 1))
      ⟨vs.map (commandWord 0x5), s⟩) := by
  induction k with
  | zero => exact .start h
  | succ k ih =>
    rw [Nat.mul_succ, List.replicate_add, session_run_append]
    exact (ih (by omega)).next hk

end

/-- Settles O58: `session_run_delivered` for every `k`, and at the last one nothing is pending. -/
theorem deliveringChannelEndsProgram : Obligations.DeliveringChannelEndsProgram := by
  intro vs s h
  have hall := session_run_delivered (vs := vs) h le_rfl
  refine ⟨fun k hk => ?_, hall.ended, hall.seq_eq, fun hvs => (hall.last (List.length_pos_iff.2 hvs)).1⟩
  obtain ⟨hpending, hidle, hseq, hlast⟩ := session_run_delivered h hk
  exact ⟨_, rfl, hpending, hidle, hseq, hlast⟩

end Sys2Proof.Machine
